-- ==== Sys2Proof/Word.lean ====
section
/-! DEFINITION. The words, numbers and names that every other file of the model speaks in. -/

namespace Sys2Proof

/-- One byte of a frame, of a payload or of the buffer memory. -/
abbrev Byte := BitVec 8

/-- A slot value, a marker word or a sample, right-aligned (00_scope.md, Conventions). -/
abbrev Word32 := BitVec 32

/-- A frame number or a domain counter: 32 bits, wrapping (00_scope.md, Conventions). -/
abbrev FrameNo := BitVec 32

/-- S0 to S11. -/
abbrev StreamNo := Fin 12

/-- A descriptor handle, 0 to 47 (Table 2-1). -/
abbrev Handle := Fin 48

/-- A buffer page, 0 to 255 (R53). -/
abbrev PageNo := Fin 256

/-- L0 to L7. -/
abbrev LaneNo := Fin 8

/-- A slot number that a slot map can name, 0 to 7 (R7). -/
abbrev SlotNo := Fin 8

/-- Clock domain A or B (chapter 5). -/
inductive DomainId where
  | a
  | b
  deriving DecidableEq, Repr

/-- The level of OVR: asserted while low, deasserted while high (section 7.1). -/
inductive LineLevel where
  | asserted
  | deasserted
  deriving DecidableEq, Repr

/-- What the eight receive lines carried during one domain frame: for each lane the levels sampled at the
rising edges of BCK, the first sample in bit 255. The longest frame has 256 bit clocks (section 5.2). -/
abbrev RxFrame := Vector (BitVec 256) 8

end Sys2Proof
end

