-- ==== Sys2Proof/Syntax.lean ====
section
/-! DEFINITION. The commands of the block: one constructor for each row of spec/opcode_table.json. -/

namespace Sys2Proof

/-- The steps of the part, each whole and indivisible (95_what_each_step_holds.md). The commands from `unknownKind`
to `setArbitration` take the oldest request of the inbound queue; their fields stand in that request's payload
(R160, Table 10-8), so they have no operand of their own (log entry 1). -/
inductive Instr where
  /-- PIN_RESET: RSTn was low and rises, with OVR at `ovr` and CSn low iff `csnLow` (R172, R132, R151). -/
  | pinReset (ovr : LineLevel) (csnLow : Bool)
  /-- CSN_FALLING: a falling edge of CSn (R152). -/
  | csnFalling
  /-- END_OF_EXCHANGE: a rising edge of CSn after the whole bytes `sdi` were clocked in (R155); as many were
  clocked out. -/
  | endOfExchange (sdi : List Byte)
  /-- UNKNOWN_KIND: a request of a kind the part does not know is taken (R161). -/
  | unknownKind
  /-- IDENTIFY is taken (R167). -/
  | identify
  /-- STATUS is taken (R168). -/
  | status
  /-- RESET with scope FULL is taken (R170). -/
  | resetFull
  /-- RESET with any other payload is taken: scope STREAMS (R171), or refused (R169, R176). -/
  | resetStreams
  /-- SET DOMAIN is taken (R89, R90). -/
  | setDomain
  /-- QUERY TIME is taken (R101). -/
  | queryTime
  /-- SET LANE is taken (R108, R109). -/
  | setLane
  /-- SET MARKER is taken (R118). -/
  | setMarker
  /-- OPEN is taken (R7 to R9). -/
  | openStream
  /-- START is taken (R10). -/
  | startStream
  /-- STOP is taken, any payload but mode ABORT (R11). -/
  | stopDrain
  /-- STOP is taken, any payload but mode DRAIN (R13, R14). -/
  | stopAbort
  /-- CLOSE is taken (R15, R16). -/
  | closeStream
  /-- QUERY STREAM is taken (R17). -/
  | queryStream
  /-- SUBMIT is taken (R28, R29). -/
  | submit
  /-- PUT is taken (R31). -/
  | put
  /-- CLEAR OVERRIDE is taken (R129). -/
  | clearOverride
  /-- SET ARBITRATION is taken (R84). -/
  | setArbitration
  /-- GRANT: the arbiter grants a move (R68). -/
  | grant
  /-- COMPLETION: the move in flight completes (R69). -/
  | completion
  /-- FRAME_CLOSED: a rising edge on the FCK pin of domain `d`, `bits` rising BCK edges after the one before it and
  `duration` after it, timed against REFCLK; `rx` is what the receive lines carried between the two (R91). -/
  | frameClosed (d : DomainId) (bits : Nat) (duration : Nat) (rx : RxFrame)
  /-- LOCK_TIMEOUT: `elapsed` has passed on domain `d` since the latest rising FCK edge (R94). -/
  | lockTimeout (d : DomainId) (elapsed : Nat)
  /-- GOOD_RUN_TIMEOUT: `elapsed` has passed on domain `d` since the latest rising FCK edge (R92, R95). -/
  | goodRunTimeout (d : DomainId) (elapsed : Nat)
  /-- GENERATOR_BOUNDARY: the generator of INTERNAL domain `d` begins a frame; `rx` is what the receive lines
  carried during the frame that ends (R96). -/
  | generatorBoundary (d : DomainId) (rx : RxFrame)
  /-- ASSERTION_EDGE: OVR goes from high to low (R125). -/
  | assertionEdge
  /-- DEASSERTION_EDGE: OVR goes from low to high (R126). -/
  | deassertionEdge
  /-- CONVERSION: the head claim becomes a report entry (R139). -/
  | conversion
  deriving DecidableEq, Repr

end Sys2Proof
end

