-- ==== Sys2Proof/Decode.lean ====
section
/-! DEFINITION. The command that a word spells by the table's bits. No row of spec/opcode_table.json gives bits, so
no word spells a command (log entry 24). -/

namespace Sys2Proof

/-- spec/opcode_table.json lists no fixed bits and no fields for any row: every word is rejected. -/
def decodeTableWord (_nbits _w : Nat) : Option Instr :=
  none

end Sys2Proof
end

