-- ==== Sys2Proof/Config.lean ====
section
/-! DEFINITION. What the SH812 fixes (its capacities, Table 0-2 and Table 9-6) and the free values: constants
with no body, for what the spec leaves open. -/

namespace Sys2Proof.Config

/-- Vendor code of the IDENTIFY reply (R167). -/
def vendorCode : Nat := 0x42
/-- Part code of the IDENTIFY reply (R167). -/
def partCode : Nat := 0x0812
/-- Revision of the IDENTIFY reply (R167). -/
def revision : Nat := 1
/-- Lanes (Table 9-6). -/
def lanes : Nat := 8
/-- Clock domains (Table 9-6). -/
def domains : Nat := 2
/-- Streams (Table 9-6). -/
def streams : Nat := 12
/-- Channels per stream, most (Table 9-6). -/
def channels : Nat := 16
/-- Queue depth limit, most (Table 9-6). -/
def depthLimit : Nat := 8
/-- Descriptors (Table 9-6). -/
def descriptors : Nat := 48
/-- Frames per descriptor, most (Table 9-6). -/
def maxFrames : Nat := 8192
/-- Bytes per descriptor, most (Table 9-6). -/
def maxBytes : Nat := 32768
/-- Pages (Table 9-6). -/
def pages : Nat := 256
/-- Page size in bytes (Table 9-6). -/
def pageSize : Nat := 512
/-- Inbound request queue (Table 9-6). -/
def inboundQueue : Nat := 8
/-- Report entries, most (Table 9-6). -/
def reportEntries : Nat := 16
/-- Payload bytes, most, each direction (Table 9-6). -/
def maxPayload : Nat := 1040
/-- The size of a play stream's window in the frame ring (R70, R71). -/
def ringWindow : Nat := 4
/-- The most held frames a capture stream keeps (R78). -/
def heldFrames : Nat := 4
/-- Good frames in a row that make a domain LOCKED (R92). -/
def lockRun : Nat := 16
/-- Where event counts stay once they reach it (R21, R102, R127). -/
def countLimit : Nat := 65535

/-- FREE VALUE (log entry 7, DESIGN CHOICE). The spec gives no order among the streams and lanes that one frame
event concerns; the model takes them in rising rank. First argument: State's free counter; second: 0 to 11 for a
stream, 12 to 19 for a lane. -/
opaque rank : Nat → Nat → Nat

/-- FREE VALUE (log entry 8, DESIGN CHOICE). What a capture stream takes for a receive slot of a lane that has
gathered nothing of the delivered frame. First argument: State's free counter; then lane and slot. -/
opaque ungatheredSlot : Nat → LaneNo → SlotNo → Word32

end Sys2Proof.Config
end

