-- ==== Sys2Proof/Machine/State.lean ====
section
/-! DEFINITION. The state of the part as plain data, the reasons a step can stop, and the state after reset. Every
piece is listed with its rule in INVENTORY.md under State. -/

namespace Sys2Proof.Machine

/-- A step never faults: the spec gives the part no event that stops it, so the type has no constructor. Safe: no
claim about a fault can be made. -/
inductive Fault
  deriving DecidableEq, Repr

/-- Why a command has no meaning. -/
inductive Refusal where
  /-- Raised by `exec` alone, for a command that has no meaning yet; the string is its mnemonic. Safe: nothing is
  claimed of it. -/
  | notModelled (mnemonic : String)
  deriving DecidableEq, Repr

/-! ## Names of choices (Table 10-6) -/

/-- Direction of a stream or descriptor. -/
inductive Direction where
  | play
  | capture
  deriving DecidableEq, Repr

/-- Class of a stream: ordinary programme material, or what the override line lets through. -/
inductive StreamClass where
  | normal
  | override
  deriving DecidableEq, Repr

/-- State of a stream (R3). -/
inductive StreamState where
  | closed
  | idle
  | running
  | stopping
  deriving DecidableEq, Repr

/-- State of a descriptor (R27). -/
inductive DescState where
  | free
  | loading
  | ready
  | waiting
  | active
  | retired
  deriving DecidableEq, Repr

/-- Outcome of a retired descriptor (R45). -/
inductive DoneOutcome where
  | complete
  | late
  | cut
  | discarded
  deriving DecidableEq, Repr

/-- Source of a domain's clocks (Table 5-1). -/
inductive Source where
  | off
  | external
  | internal
  deriving DecidableEq, Repr

/-- State of a domain (R87). -/
inductive DomainState where
  | off
  | acquiring
  | locked
  | lost
  deriving DecidableEq, Repr

/-- Mode of the arbiter (R84). -/
inductive ArbMode where
  | fixed
  | rotating
  deriving DecidableEq, Repr

/-- Cause of a full reset (R147). -/
inductive ResetCause where
  | pin
  | request
  deriving DecidableEq, Repr

/-- Start of a descriptor: IMMEDIATE, or AT a frame number (Table 2-1). -/
inductive Start where
  | immediate
  | at (t : FrameNo)
  deriving DecidableEq, Repr

/-- Status codes (Table 10-7). -/
inductive Status where
  | ok
  | unknownKind
  | badLength
  | badField
  | badState
  | stale
  | slotTaken
  | domainMismatch
  | domainOff
  | domainBusy
  | laneInUse
  | laneDisabled
  | widthMismatch
  | queueFull
  | poolEmpty
  | pagesShort
  | stillLoading
  | notLoading
  | overlength
  | lineActive
  | markerWidth
  deriving DecidableEq, Repr

/-! ## Stream Table -/

/-- What a move put in the frame ring for one frame (R70). Samples are the channels' values in slot-map order, each
right-aligned in its memory width. -/
inductive RingEntry where
  | sample (samples : List Word32)
  | muted
  | fill
  deriving DecidableEq, Repr

/-- Kind of a backlog entry (section 4.5). -/
inductive EntryKind where
  | held (samples : List Word32)
  | lostZero
  | lateZero
  deriving DecidableEq, Repr

/-- One received position that waits for a move (section 4.5, R68). -/
structure BacklogEntry where
  handle : Handle
  position : Nat
  frame : FrameNo
  kind : EntryKind
  deriving DecidableEq, Repr

/-- The stream event record (R23). -/
structure StreamRecord where
  gapStart : Option FrameNo
  gapEnd : Option FrameNo
  gapFrames : Nat
  drained : Bool
  deriving DecidableEq, Repr

/-- The emptied stream event record (R23). -/
def StreamRecord.empty : StreamRecord :=
  { gapStart := none, gapEnd := none, gapFrames := 0, drained := false }

/-- A stream context (Table 1-1). The lead is the length of `ring` (R70): `ring` holds the stream's entries for the
frames N, N + 1, … of its domain. -/
structure Stream where
  state : StreamState
  generation : BitVec 8
  direction : Direction
  cls : StreamClass
  overlay : Bool
  width : Nat
  depth : Nat
  map : List (LaneNo × SlotNo)
  domain : DomainId
  queue : List Handle
  ring : List RingEntry
  backlog : List BacklogEntry
  sounding : Bool
  gapOpen : Bool
  record : StreamRecord
  deriving DecidableEq, Repr

/-- The ownership entries (R4): a position is (lane, direction, slot), kept at index 8 * lane + slot. -/
structure Owners where
  txBase : Vector (Option StreamNo) 64
  txOverlay : Vector (Option StreamNo) 64
  rxBase : Vector (Option StreamNo) 64
  deriving DecidableEq, Repr

/-! ## Descriptor Pool -/

/-- Outcome counts of a descriptor (Table 2-1). -/
structure Counts where
  sounded : Nat
  muted : Nat
  skipped : Nat
  late : Nat
  unreached : Nat
  stored : Nat
  lost : Nat
  deriving DecidableEq, Repr

/-- All counts 0 (R29). -/
def Counts.zero : Counts :=
  { sounded := 0, muted := 0, skipped := 0, late := 0, unreached := 0, stored := 0, lost := 0 }

/-- A descriptor record (Table 2-1); its handle is its index. `gone` counts the entries of `pages` already released or
handed on (R53, R58, R60); `written` is the length of the run written by capture moves (R61); `assigned` counts the
capture positions assigned, passed over or late at eligibility (R32). -/
structure Descriptor where
  state : DescState
  stream : StreamNo
  generation : BitVec 8
  direction : Direction
  tag : BitVec 16
  frames : Nat
  bytes : Nat
  start : Start
  pages : List PageNo
  gone : Nat
  loaded : Nat
  written : Nat
  assigned : Nat
  span : Option FrameNo
  resolved : Nat
  counts : Counts
  outcome : Option DoneOutcome
  endFrame : Option FrameNo
  deriving DecidableEq, Repr

/-- A FREE record: nothing in it can be read (R26; DESIGN CHOICE, log entry 16). -/
def Descriptor.blank : Descriptor :=
  { state := .free, stream := 0, generation := 0, direction := .play, tag := 0, frames := 0, bytes := 0,
    start := .immediate, pages := [], gone := 0, loaded := 0, written := 0, assigned := 0, span := none, resolved := 0,
    counts := Counts.zero, outcome := none, endFrame := none }

/-! ## Transfer Engine -/

/-- The in-flight record (Table 4-1). The samples of a held frame stand in its entry kind. -/
structure Move where
  stream : StreamNo
  generation : BitVec 8
  direction : Direction
  handle : Handle
  position : Nat
  frame : FrameNo
  kind : Option EntryKind
  mute : Bool
  void : Bool
  deriving DecidableEq, Repr

/-! ## Clock Domains -/

/-- The domain event record (Table 5-1, R102). -/
structure DomainRecord where
  latest : DomainState
  transitions : Nat
  counter : FrameNo
  deriving DecidableEq, Repr

/-- A domain record (Table 5-1). `measuring`: an FCK edge has opened the frame now measured (R90, R91, R94).
`delivers`: the next frame event delivers a receive frame (R34, R98). -/
structure Domain where
  source : Source
  divider : Nat
  slots : Nat
  width : Nat
  state : DomainState
  counter : FrameNo
  goodRun : Nat
  lastGood : Option Nat
  measuring : Bool
  delivers : Bool
  record : DomainRecord
  deriving DecidableEq, Repr

/-- A domain after a full reset (Table 5-3). -/
def Domain.afterReset : Domain :=
  { source := .off, divider := 1, slots := 2, width := 32, state := .off, counter := 0, goodRun := 0, lastGood := none,
    measuring := false, delivers := false, record := { latest := .off, transitions := 0, counter := 0 } }

/-! ## Lanes -/

/-- A received-marker assembly (Table 6-1, R119). -/
structure Assembly where
  block : BitVec 27
  count : Nat
  word : Word32
  deriving DecidableEq, Repr

/-- A lane record (Table 6-1). `txFrame` is the composed frame being shifted out, one value a slot, none while TXDn is
held low (R106, R110); `gathering`: the lane is gathering the domain frame in progress (R107, R109, R111). -/
structure Lane where
  domain : DomainId
  txEnable : Bool
  rxEnable : Bool
  txMarker : Bool
  rxMarker : Bool
  staged : Option Word32
  current : Word32
  assembly : Option Assembly
  lastReported : Option Word32
  eventWord : Option Word32
  txFrame : Option (List Word32)
  gathering : Bool
  deriving DecidableEq, Repr

/-- A lane after a full reset (Table 6-3). -/
def Lane.afterReset : Lane :=
  { domain := .a, txEnable := false, rxEnable := false, txMarker := false, rxMarker := false, staged := none, current := 0,
    assembly := none, lastReported := none, eventWord := none, txFrame := none, gathering := false }

/-! ## Override Unit -/

/-- The Override Unit (Table 7-1). Whether a claim is pending is read from the claim list. A latch is `true` when
SET. -/
structure OverrideUnit where
  level : LineLevel
  latch : Bool
  recLevel : LineLevel
  edges : Nat
  recLatch : Bool
  deriving DecidableEq, Repr

/-! ## Report Path -/

/-- What a DATA claim records, and the page it holds (R60, R61, R135). -/
structure DataClaim where
  stream : StreamNo
  generation : BitVec 8
  handle : Handle
  tag : BitVec 16
  offset : Nat
  count : Nat
  page : PageNo
  deriving DecidableEq, Repr

/-- A claim (R134). A STREAM EVENT claim is attached to its stream, or detached with its own copy (R137). -/
inductive Claim where
  | done (h : Handle)
  | data (c : DataClaim)
  | streamEvent (i : StreamNo)
  | streamDetached (i : StreamNo) (generation : BitVec 8) (record : StreamRecord)
  | domainEvent (d : DomainId)
  | overrideEvent
  | marker (l : LaneNo)
  deriving DecidableEq, Repr

/-! ## Exchange Port -/

/-- A request in the inbound queue (Table 9-1). -/
structure Request where
  seq : BitVec 8
  kind : Byte
  payload : List Byte
  deriving DecidableEq, Repr

/-- The STATUS snapshot (Table 9-7). -/
structure StatusView where
  freeDescs : Nat
  freePages : Nat
  claims : Nat
  reports : Nat
  level : LineLevel
  latch : Bool
  stateA : DomainState
  counterA : FrameNo
  stateB : DomainState
  counterB : FrameNo
  mode : ArbMode
  moving : Bool
  deriving DecidableEq, Repr

/-- What QUERY STREAM shows of one queued descriptor (R17). -/
structure DescView where
  handle : Handle
  tag : BitVec 16
  state : DescState
  span : Option FrameNo
  resolved : Nat
  deriving DecidableEq, Repr

/-- The QUERY STREAM snapshot (R17, Table 10-10). -/
structure StreamView where
  stream : StreamNo
  state : StreamState
  generation : BitVec 8
  direction : Direction
  cls : StreamClass
  overlay : Bool
  width : Nat
  depth : Nat
  domain : DomainId
  map : List (LaneNo × SlotNo)
  leadOrHeld : Nat
  zeroPositions : Nat
  sounding : Bool
  gapOpen : Bool
  record : StreamRecord
  descs : List DescView
  deriving DecidableEq, Repr

/-- What follows the common part of a reply (R178, Table 10-9). -/
inductive ReplyBody where
  | nothing
  | subject (b : Byte)
  | identify
  | status (v : StatusView)
  | domain (d : DomainId) (st : DomainState) (n : FrameNo)
  | lane (l : LaneNo) (d : DomainId) (tx rx txMarker rxMarker : Bool)
  | marker (l : LaneNo) (replaced : Bool)
  | opening (i : StreamNo) (generation : BitVec 8)
  | stream (i : StreamNo)
  | submit (i : StreamNo) (h : Handle) (pages : Nat)
  | put (i : StreamNo) (h : Handle) (loaded : Nat)
  | latch (set : Bool)
  | queryStream (v : StreamView)
  deriving DecidableEq, Repr

/-- A reply (R161, R178). -/
structure Reply where
  seq : BitVec 8
  kind : Byte
  status : Status
  body : ReplyBody
  deriving DecidableEq, Repr

/-- A DONE report (R140). -/
structure DoneReport where
  stream : StreamNo
  generation : BitVec 8
  direction : Direction
  handle : Handle
  tag : BitVec 16
  outcome : DoneOutcome
  span : Option FrameNo
  endFrame : Option FrameNo
  counts : Counts
  deriving DecidableEq, Repr

/-- A report (R138). A DATA report holds its page and reads its bytes at each sending (R62). -/
inductive Report where
  | resetNotice (cause : ResetCause)
  | done (r : DoneReport)
  | data (c : DataClaim)
  | streamEvent (i : StreamNo) (generation : BitVec 8) (record : StreamRecord)
  | domainEvent (d : DomainId) (record : DomainRecord)
  | overrideEvent (level : LineLevel) (edges : Nat) (latch : Bool)
  | marker (l : LaneNo) (w : Word32)
  deriving DecidableEq, Repr

/-- What an outbound entry carries (Table 9-1). -/
inductive EntryBody where
  | reply (r : Reply)
  | report (r : Report)
  deriving DecidableEq, Repr

/-- An entry of the outbound queue (Table 9-1): `sent` is its sending mark, SENT or UNSENT. -/
structure Entry where
  seq : BitVec 8
  body : EntryBody
  sent : Bool
  carried : Bool
  deriving DecidableEq, Repr

/-- The outbound frame composed at CSn falling, and the number of the entry it carries (R152). -/
structure OutFrame where
  bytes : List Byte
  carries : Option (BitVec 8)
  deriving DecidableEq, Repr

/-- The Exchange Port (Table 9-1). `frame` is present while an exchange is in progress; CSn is low without one
while an abandoned exchange lasts (R151). -/
structure Port where
  inbound : List Request
  lastIn : BitVec 8
  lastOut : BitVec 8
  outbound : List Entry
  due : Option (BitVec 8)
  lastBad : Bool
  lastSeq : Bool
  lastFull : Bool
  csnLow : Bool
  frame : Option OutFrame
  deriving DecidableEq, Repr

/-- Buffer memory: (address, byte) pairs, addresses strictly rising, no entry equal to what an unlisted address reads
as. Page p holds the addresses 512 * p to 512 * p + 511 (R53, R56). -/
abbrev Memory := List Host.Cell

/-! ## Pins -/

/-- What a pin that is not always an output shows at one bit clock: `notDriven` is high impedance, or an input; a driven
pin has a level, none where the spec drives the pin and states no level (log entry 30). -/
inductive PinOut where
  | notDriven
  | driven (level : Option Bool)
  deriving DecidableEq, Repr

/-! ## The whole part -/

/-- The state of the part (Table 0-1), the commands that wait, and the model's own counter of free values. -/
structure State where
  pending : List Instr
  port : Port
  streams : Vector Stream 12
  owners : Owners
  descs : Vector Descriptor 48
  freeList : List PageNo
  mem : Memory
  inFlight : Option Move
  mode : ArbMode
  rotation : List StreamNo
  domA : Domain
  domB : Domain
  lanes : Vector Lane 8
  ovr : OverrideUnit
  claims : List Claim
  freeCount : Nat
  deriving DecidableEq, Repr

/-- A step's answer. -/
abbrev Out := Host.Outcome State Fault Refusal

/-- A stream before its first opening: CLOSED, generation 0 (Table 1-3); the fields an opening sets are DESIGN CHOICE
(log entry 5). -/
def Stream.atPowerOn : Stream :=
  { state := .closed, generation := 0, direction := .play, cls := .normal, overlay := false, width := 2, depth := 1,
    map := [], domain := .a, queue := [], ring := [], backlog := [], sounding := false, gapOpen := false,
    record := StreamRecord.empty }

/-- No position has an owner (R24). -/
def Owners.none : Owners :=
  { txBase := Vector.replicate 64 Option.none, txOverlay := Vector.replicate 64 Option.none,
    rxBase := Vector.replicate 64 Option.none }

/-- The port after a full reset: the RESET NOTICE stands alone in the outbound queue (Table 9-8). -/
def Port.afterReset (cause : ResetCause) (csnLow : Bool) : Port :=
  { inbound := [], lastIn := 0, lastOut := 1,
    outbound := [{ seq := 1, body := .report (.resetNotice cause), sent := false, carried := false }],
    due := none, lastBad := false, lastSeq := false, lastFull := false, csnLow := csnLow, frame := none }

/-- The part right after a pin reset that ended with OVR deasserted and CSn high (R172; DESIGN CHOICE for the two
levels, the stream fields and the memory, log entries 4, 5, 6). -/
def State.reset : State :=
  { pending := []
    port := Port.afterReset .pin false
    streams := Vector.replicate 12 Stream.atPowerOn
    owners := Owners.none
    descs := Vector.replicate 48 Descriptor.blank
    freeList := List.finRange 256
    mem := []
    inFlight := none
    mode := .fixed
    rotation := List.finRange 12
    domA := Domain.afterReset
    domB := Domain.afterReset
    lanes := Vector.replicate 8 Lane.afterReset
    ovr := { level := .deasserted, latch := false, recLevel := .deasserted, edges := 0, recLatch := false }
    claims := []
    freeCount := 0 }

end Sys2Proof.Machine
end

