-- ==== Sys2Proof/Machine/Ops.lean ====
section
/-! DEFINITION. The named operations that every meaning is made of: reading and changing the parts of the state, the
buffer memory, the free list, claims, outbound entries and the views of the port. -/

namespace Sys2Proof.Machine

/-! ## Frame numbers -/

/-- Frame `a` precedes frame `b` when (b − a) modulo 2^32 lies in 1 to 2^31 − 1 (R100; log entry 10). -/
def precedes (a b : FrameNo) : Bool :=
  decide (1 ≤ (b - a).toNat) && decide ((b - a).toNat < 2 ^ 31)

/-- How many of the `n` consecutive frames from `first` precede `e`, when `first` does (R36, R41). -/
def lateCount (first e : FrameNo) (n : Nat) : Nat :=
  if precedes first e then min (e - first).toNat n else 0

/-- How many of the `n` positions of a play span that starts at `S` come before the first free frame `e`: as `lateCount`, but a
start exactly 2^31 frames ahead of `e` counts as earlier too, as the last sentences of R35 and R100 say (log entry 10). -/
def playLateCount (S e : FrameNo) (n : Nat) : Nat :=
  if 1 ≤ (e - S).toNat ∧ (e - S).toNat ≤ 2 ^ 31 then min (e - S).toNat n else 0

/-- The frame of position `p` of a span that starts at `S` (Table 2-1). -/
def frameOf (S : FrameNo) (p : Nat) : FrameNo :=
  S + BitVec.ofNat 32 p

/-- An event count that stays at 65535 (R21, R102, R127). -/
def bump (n : Nat) : Nat :=
  if n < Config.countLimit then n + 1 else Config.countLimit

/-- The successor of a link sequence number: 1 follows 255 and 0 (R157, R162). -/
def nextSeq (q : BitVec 8) : BitVec 8 :=
  if q = 255 then 1 else q + 1

/-! ## Parts of the state -/

/-- The stream context of `i`. -/
def State.stream (s : State) (i : StreamNo) : Stream := s.streams.get i

/-- The descriptor record of handle `h`. -/
def State.desc (s : State) (h : Handle) : Descriptor := s.descs.get h

/-- The lane record of `l`. -/
def State.lane (s : State) (l : LaneNo) : Lane := s.lanes.get l

/-- The domain record of `d`. -/
def State.domain (s : State) : DomainId → Domain
  | .a => s.domA
  | .b => s.domB

/-- Change stream `i`. -/
def State.modStream (s : State) (i : StreamNo) (f : Stream → Stream) : State :=
  { s with streams := s.streams.set i.val (f (s.stream i)) i.isLt }

/-- Change descriptor `h`. -/
def State.modDesc (s : State) (h : Handle) (f : Descriptor → Descriptor) : State :=
  { s with descs := s.descs.set h.val (f (s.desc h)) h.isLt }

/-- Change lane `l`. -/
def State.modLane (s : State) (l : LaneNo) (f : Lane → Lane) : State :=
  { s with lanes := s.lanes.set l.val (f (s.lane l)) l.isLt }

/-- Change domain `d`. -/
def State.modDomain (s : State) (d : DomainId) (f : Domain → Domain) : State :=
  match d with
  | .a => { s with domA := f s.domA }
  | .b => { s with domB := f s.domB }

/-- Change every stream at once. -/
def State.mapStreams (s : State) (f : Stream → Stream) : State :=
  { s with streams := Vector.ofFn fun i => f (s.stream i) }

/-- Change every lane of domain `d` at once. -/
def State.mapLanesOf (s : State) (d : DomainId) (f : LaneNo → Lane → Lane) : State :=
  { s with lanes := Vector.ofFn fun l => if (s.lane l).domain = d then f l (s.lane l) else s.lane l }

/-- Change the port. -/
def State.modPort (s : State) (f : Port → Port) : State :=
  { s with port := f s.port }

/-- RUNNING or STOPPING (R3). -/
def Stream.moving (st : Stream) : Bool :=
  st.state = .running || st.state = .stopping

/-- IDLE, RUNNING or STOPPING (Table 1-2). -/
def Stream.isOpen (st : Stream) : Bool :=
  st.state ≠ .closed

/-- The number of frames moved into the ring and not yet committed (R70). -/
def Stream.lead (st : Stream) : Nat := st.ring.length

/-- The number of entries of the slot map (R6). -/
def Stream.channels (st : Stream) : Nat := st.map.length

/-- Bytes of one frame of the stream: channels × memory width (R6). -/
def Stream.frameSize (st : Stream) : Nat := st.channels * st.width

/-- Bytes of one frame of the descriptor: bytes ÷ frames (R56). -/
def Descriptor.frameSize (d : Descriptor) : Nat := d.bytes / d.frames

/-- The entries of the page list that the descriptor still holds (R53). -/
def Descriptor.heldPages (d : Descriptor) : List PageNo := d.pages.drop d.gone

/-- Eligible: the span start is fixed and the descriptor is queued (R27). -/
def Descriptor.eligible (d : Descriptor) : Bool :=
  d.state = .waiting || d.state = .active

/-! ## Ownership entries (R4) -/

/-- Where the ownership entry of (lane, slot) stands. -/
def posIndex (l : LaneNo) (k : SlotNo) : Fin 64 :=
  ⟨8 * l.val + k.val, by have := l.isLt; have := k.isLt; omega⟩

/-- Base owner of a transmit position. -/
def State.txBase (s : State) (l : LaneNo) (k : SlotNo) : Option StreamNo := s.owners.txBase.get (posIndex l k)

/-- Overlay owner of a transmit position. -/
def State.txOverlay (s : State) (l : LaneNo) (k : SlotNo) : Option StreamNo := s.owners.txOverlay.get (posIndex l k)

/-- Base owner of a receive position. -/
def State.rxBase (s : State) (l : LaneNo) (k : SlotNo) : Option StreamNo := s.owners.rxBase.get (posIndex l k)

/-- Stream `i` takes a role at every position of `map`. -/
def claimPositions (v : Vector (Option StreamNo) 64) (i : StreamNo) :
    List (LaneNo × SlotNo) → Vector (Option StreamNo) 64
  | [] => v
  | (l, k) :: rest => claimPositions (v.set (posIndex l k).val (some i) (posIndex l k).isLt) i rest

/-- Stream `i` gives up its roles (R15). -/
def freePositions (v : Vector (Option StreamNo) 64) (i : StreamNo) : Vector (Option StreamNo) 64 :=
  Vector.ofFn fun q => if v.get q = some i then none else v.get q

/-- The base or overlay roles that an opening takes (R4, R9). -/
def Owners.take (o : Owners) (i : StreamNo) (dir : Direction) (overlay : Bool) (map : List (LaneNo × SlotNo)) : Owners :=
  match dir, overlay with
  | .capture, _ => { o with rxBase := claimPositions o.rxBase i map }
  | .play, true => { o with txOverlay := claimPositions o.txOverlay i map }
  | .play, false => { o with txBase := claimPositions o.txBase i map }

/-- Both roles of every position that stream `i` holds become free (R15). -/
def Owners.release (o : Owners) (i : StreamNo) : Owners :=
  { txBase := freePositions o.txBase i, txOverlay := freePositions o.txOverlay i, rxBase := freePositions o.rxBase i }

/-- Some position of the lane has an owner in either role (R89 step 2, R108 step 2). -/
def State.laneOwned (s : State) (l : LaneNo) : Bool :=
  (List.finRange 8).any fun k => (s.txBase l k).isSome || (s.txOverlay l k).isSome || (s.rxBase l k).isSome

/-! ## Buffer memory (R53, R56) -/

/-- What an unlisted address reads as (DESIGN CHOICE, log entry 6). -/
def Memory.fill : Byte := 0

/-- The byte at address `a`. -/
def Memory.read : Memory → Nat → Byte
  | [], _ => Memory.fill
  | (b, v) :: rest, a => if a = b then v else Memory.read rest a

/-- Store `v` at address `a`, keeping the canonical form. -/
def Memory.write : Memory → Nat → Byte → Memory
  | [], a, v => if v = Memory.fill then [] else [(a, v)]
  | (b, w) :: rest, a, v =>
    if a < b then (if v = Memory.fill then (b, w) :: rest else (a, v) :: (b, w) :: rest)
    else if a = b then (if v = Memory.fill then rest else (a, v) :: rest)
    else (b, w) :: Memory.write rest a v

/-- Every address listed is at least `lo`, the addresses rise strictly, and no listed byte is the fill. -/
def Memory.canonicalFrom : Nat → Memory → Bool
  | _, [] => true
  | lo, (a, v) :: rest => decide (lo ≤ a) && decide (v ≠ Memory.fill) && Memory.canonicalFrom (a + 1) rest

/-- The canonical form of the buffer memory: strictly rising addresses, no entry that reads as an unlisted one. -/
def Memory.wf (m : Memory) : Bool := Memory.canonicalFrom 0 m

/-- The address of byte `b` of page `p`. -/
def pageAddr (p : PageNo) (b : Nat) : Nat := Config.pageSize * p.val + b

/-- The address of descriptor offset `b`: byte b mod 512 of the page at entry b div 512 (R56). An offset past the page
list has no address; no rule reaches one. -/
def Descriptor.addr (d : Descriptor) (b : Nat) : Option Nat :=
  match d.pages[b / Config.pageSize]? with
  | some p => some (pageAddr p (b % Config.pageSize))
  | none => none

/-- The byte at descriptor offset `b`. -/
def readOffset (m : Memory) (d : Descriptor) (b : Nat) : Byte :=
  match d.addr b with
  | some a => m.read a
  | none => Memory.fill

/-- Store `bs` at descriptor offsets `b`, `b + 1`, … (R31, R42). -/
def writeOffsets (d : Descriptor) : Nat → List Byte → Memory → Memory
  | _, [], m => m
  | b, v :: vs, m =>
    writeOffsets d (b + 1) vs (match d.addr b with
      | some a => m.write a v
      | none => m)

/-! ## Samples (R112, R113, Conventions) -/

/-- The low `w` bits of a word. -/
def lowBits (w : Nat) (x : Word32) : Word32 := (x <<< (32 - w)) >>> (32 - w)

/-- The bytes of a sample of memory width `w`, least significant first. -/
def sampleBytes (w : Nat) (x : Word32) : List Byte :=
  (List.range w).map fun k => (x >>> (8 * k)).setWidth 8

/-- The sample whose bytes are `bs`, least significant first. -/
def sampleOfBytes : List Byte → Word32
  | [] => 0
  | b :: bs => b.setWidth 32 ||| (sampleOfBytes bs <<< 8)

/-- The sample of channel `k` of position `p`, read from the descriptor's pages (R56, R57). -/
def readSample (m : Memory) (d : Descriptor) (w p k : Nat) : Word32 :=
  sampleOfBytes ((List.range w).map fun j => readOffset m d (p * d.frameSize + k * w + j))

/-- A memory sample of `w` bytes in a transmit slot of `W` bits: the top 8w bits (R112). -/
def packSlot (W w : Nat) (x : Word32) : Word32 := x <<< (W - 8 * w)

/-- A receive slot of `W` bits as a sample of `w` bytes: its top 8w bits (R113). -/
def unpackSlot (W w : Nat) (x : Word32) : Word32 := x >>> (W - 8 * w)

/-- The value of slot `k` of width `W` that lane `l` gathered: slot 0 first, most significant bit first (R111). -/
def rxSlot (rx : RxFrame) (W : Nat) (l : LaneNo) (k : Nat) : Word32 :=
  lowBits W ((rx.get l >>> (256 - (k + 1) * W)).setWidth 32)

/-! ## Free list (R54) -/

/-- Pages join the tail of the free list. -/
def State.release (s : State) (ps : List PageNo) : State :=
  { s with freeList := s.freeList ++ ps }

/-- Descriptor `h` gives up the entries of its page list below `n` that it still holds, in page-list order, to the
free list (R58). -/
def State.releaseEntries (s : State) (h : Handle) (n : Nat) : State :=
  (s.release (((s.desc h).pages.take n).drop (s.desc h).gone)).modDesc h fun d => { d with gone := max d.gone n }

/-! ## Claims (R134, R136) -/

/-- A claim joins the tail of the claim list. -/
def State.raiseClaim (s : State) (c : Claim) : State :=
  { s with claims := s.claims ++ [c] }

/-- A coalescing claim is raised if none is pending (R136). -/
def State.raiseOnce (s : State) (c : Claim) : State :=
  if c ∈ s.claims then s else s.raiseClaim c

/-! ## Outbound entries and the port's views -/

/-- The entry carries a reply. -/
def Entry.isReply (e : Entry) : Bool :=
  match e.body with
  | .reply _ => true
  | .report _ => false

/-- The entry carries a report (R138). -/
def Entry.isReport (e : Entry) : Bool := !e.isReply

/-- The page a DATA entry holds (R62). -/
def Entry.page (e : Entry) : Option PageNo :=
  match e.body with
  | .report (.data c) => some c.page
  | _ => none

/-- The page a DATA claim holds (R53). -/
def Claim.page : Claim → Option PageNo
  | .data c => some c.page
  | _ => none

/-- Append an entry: it receives the next outbound sequence number, UNSENT and not carried (R162). -/
def State.appendEntry (s : State) (b : EntryBody) : State :=
  s.modPort fun p => { p with
    lastOut := nextSeq p.lastOut
    outbound := p.outbound ++ [{ seq := nextSeq p.lastOut, body := b, sent := false, carried := false }] }

/-- Report entries in the outbound queue (R138). -/
def State.reportEntries (s : State) : Nat := s.port.outbound.countP Entry.isReport

/-- Reply entries in the outbound queue. -/
def State.replyEntries (s : State) : Nat := s.port.outbound.countP Entry.isReply

/-- Report room: 16 minus the report entries (R138). -/
def State.reportRoom (s : State) : Nat := Config.reportEntries - s.reportEntries

/-- Inbound room: 8 minus the queued requests and the reply entries (R159). -/
def State.room (s : State) : Nat := Config.inboundQueue - (s.port.inbound.length + s.replyEntries)

/-- ATTN is asserted while the outbound queue holds an entry (R166). -/
def State.attn (s : State) : Bool := !s.port.outbound.isEmpty

/-- The level of the ATTN pin, high when asserted, with RSTn at the level given: low while RSTn holds the part in reset
(R166, R172). -/
def State.attnPin (s : State) (rstnLow : Bool) : Bool := !rstnLow && s.attn

/-- The send cursor: the oldest entry marked UNSENT (Table 9-1). -/
def State.cursor (s : State) : Option Entry := s.port.outbound.find? fun e => !e.sent

/-- Byte `k` that the exchange in progress gives on SDO: the frame's byte, 0x00 beyond its end (R153); none while no
exchange is in progress. -/
def State.sdoByte (s : State) (k : Nat) : Option Byte :=
  s.port.frame.map fun f => f.bytes.getD k 0

/-- Bit `j` of a byte as it crosses the control port, counted from 0 at the first bit shifted: most significant bit first
(R151). -/
def shiftedBit (b : Byte) (j : Nat) : Bool := b.getLsbD (7 - j)

/-- SDO at bit clock `j` of an exchange, counted from 0, with RSTn at the level given: high impedance while the part is
held in reset or CSn is high, else driven (R151, R172); with no exchange in progress the spec states no level (log
entry 30). -/
def State.sdoPin (s : State) (rstnLow : Bool) (j : Nat) : PinOut :=
  if rstnLow || !s.port.csnLow then .notDriven
  else .driven ((s.sdoByte (j / 8)).map fun b => shiftedBit b (j % 8))

/-- The byte of eight bits, most significant bit first (R151). -/
def byteOfBits (b7 b6 b5 b4 b3 b2 b1 b0 : Bool) : Byte := BitVec.ofBoolListBE [b7, b6, b5, b4, b3, b2, b1, b0]

/-- The whole bytes of the levels sampled on SDI at the rising edges of SCK: eight to a byte, most significant bit first,
the bits after the last whole byte ignored (R151). This is what END_OF_EXCHANGE carries (log entry 19). -/
def sdiBytes : List Bool → List Byte
  | b7 :: b6 :: b5 :: b4 :: b3 :: b2 :: b1 :: b0 :: rest =>
    byteOfBits b7 b6 b5 b4 b3 b2 b1 b0 :: sdiBytes rest
  | _ => []

/-- The part drives BCK and FCK of the domain while its source is INTERNAL; else they are inputs (R87, R90). -/
def State.drivesClocks (s : State) (d : DomainId) : Bool :=
  (s.domain d).source = .internal

/-- FCK at bit clock `k` of a frame, counted from 0 at the first bit clock of slot 0: high for the first half of the frame
and low for the second (R88). -/
def Domain.fckLevel (dm : Domain) (k : Nat) : Bool :=
  decide (k < dm.slots * dm.width / 2)

/-- The FCK pin of domain `d` at bit clock `k` of the frame in progress: produced by an INTERNAL domain (R88), an input of
any other (R87). Until the first boundary after SET DOMAIN no frame is in progress, and the spec states no level (R90; log
entry 30). -/
def State.fckPin (s : State) (d : DomainId) (k : Nat) : PinOut :=
  if s.drivesClocks d then
    .driven (if (s.domain d).delivers then some ((s.domain d).fckLevel k) else none)
  else .notDriven

/-- The level of TXD of lane `l` at bit `j` of the domain frame in progress: bit `j` of the composed frame, low where
there is no frame or no bit to give (R106, R110). -/
def State.txdBit (s : State) (l : LaneNo) (j : Nat) : Bool :=
  match (s.lane l).txFrame with
  | none => false
  | some slots =>
    let W := (s.domain (s.lane l).domain).width
    match slots[j / W]? with
    | none => false
    | some x => x.getLsbD (W - 1 - j % W)

/-! ## Held frames (R78) -/

/-- A backlog entry is a held frame. -/
def EntryKind.isHeld : EntryKind → Bool
  | .held _ => true
  | _ => false

/-- The move in flight carries a held frame of the opening that stream `i` now has (R78). -/
def State.heldInFlight (s : State) (i : StreamNo) : Bool :=
  match s.inFlight with
  | none => false
  | some m =>
    decide (m.stream = i) && decide (m.generation = (s.stream i).generation) &&
      (match m.kind with
        | some k => k.isHeld
        | none => false)

/-- The held frame count of stream `i` (R78). -/
def State.heldCount (s : State) (i : StreamNo) : Nat :=
  (s.stream i).backlog.countP (fun e => e.kind.isHeld) + (s.heldInFlight i).toNat

/-- The zero positions in the backlog (R17). -/
def Stream.zeroPositions (st : Stream) : Nat :=
  st.backlog.countP fun e => !e.kind.isHeld

/-! ## The move in flight -/

/-- Mark the move in flight void when it satisfies `p` (R80). -/
def State.voidIf (s : State) (p : Move → Bool) : State :=
  { s with inFlight := s.inFlight.map fun m => { m with void := m.void || p m } }

/-- Mark the move in flight void when it belongs to stream `i` (R14, R15). -/
def State.voidStream (s : State) (i : StreamNo) : State :=
  s.voidIf fun m => m.stream = i

/-! ## Replies (R161, R178) -/

/-- Append the reply to request `r`: its sequence number and kind echoed, a status and the results. -/
def State.reply (s : State) (r : Request) (st : Status) (b : ReplyBody) : State :=
  s.appendEntry (.reply { seq := r.seq, kind := r.kind, status := st, body := b })

/-- Take the oldest request of the inbound queue if it satisfies `sel`: it leaves the queue and `act` answers it
(R160, R161). With no such request the taking does not happen (log entry 2). -/
def State.takeHead (s : State) (sel : Request → Bool) (act : Request → State → State) : State :=
  match s.port.inbound with
  | [] => s
  | r :: rest => if sel r then act r (s.modPort fun p => { p with inbound := rest }) else s

end Sys2Proof.Machine
end

