-- ==== Sys2Proof/Machine/Operands.lean ====
section
/-! DEFINITION. Reading a request: its kind (Table 10-4), the payload lengths that fit (R176), its fields and their
codes (Table 10-6, Table 10-8), and the check orders of requests (R1, R177). -/

namespace Sys2Proof.Machine

/-! ## Kinds (Table 10-4) -/

/-- The request kinds that are taken. NOP is never queued (R157). -/
inductive Kind where
  | identify
  | status
  | reset
  | setDomain
  | queryTime
  | setLane
  | setMarker
  | openStream
  | closeStream
  | startStream
  | stopStream
  | queryStream
  | submit
  | put
  | clearOverride
  | setArbitration
  deriving DecidableEq, Repr

/-- The kind that a kind code stands for; none for a code missing from Table 10-4, and for NOP, which is never
taken. -/
def kindOf (c : Byte) : Option Kind :=
  match c.toNat with
  | 0x01 => some .identify
  | 0x02 => some .status
  | 0x03 => some .reset
  | 0x10 => some .setDomain
  | 0x11 => some .queryTime
  | 0x12 => some .setLane
  | 0x13 => some .setMarker
  | 0x20 => some .openStream
  | 0x21 => some .closeStream
  | 0x22 => some .startStream
  | 0x23 => some .stopStream
  | 0x24 => some .queryStream
  | 0x30 => some .submit
  | 0x31 => some .put
  | 0x40 => some .clearOverride
  | 0x41 => some .setArbitration
  | _ => none

/-- The kind code of NOP (Table 10-4). -/
def nopKind : Byte := 0x00

/-! ## Fields (R174) -/

/-- The byte at payload offset `k`. -/
def byteAt (p : List Byte) (k : Nat) : Byte := p.getD k 0

/-- A 2-byte field, least significant byte first. -/
def field2 (p : List Byte) (k : Nat) : BitVec 16 :=
  (byteAt p k).setWidth 16 ||| ((byteAt p (k + 1)).setWidth 16 <<< 8)

/-- A 4-byte field, least significant byte first. -/
def field4 (p : List Byte) (k : Nat) : BitVec 32 :=
  (field2 p k).setWidth 32 ||| ((field2 p (k + 2)).setWidth 32 <<< 16)

/-- The payload lengths that fit each kind (R176). -/
def lengthFits (k : Kind) (p : List Byte) : Bool :=
  match k with
  | .identify => p.length == 0
  | .status => p.length == 0
  | .clearOverride => p.length == 0
  | .reset => p.length == 1
  | .queryTime => p.length == 1
  | .setArbitration => p.length == 1
  | .closeStream => p.length == 2
  | .startStream => p.length == 2
  | .queryStream => p.length == 2
  | .stopStream => p.length == 3
  | .setDomain => p.length == 5
  | .setMarker => p.length == 5
  | .setLane => p.length == 6
  | .submit => p.length == 11
  | .openStream => decide (7 ≤ p.length) && p.length == 7 + 2 * (byteAt p 6).toNat
  | .put => decide (4 ≤ p.length) && decide (p.length ≤ 1027)

/-! ## Codes (Table 10-6) -/

/-- A stream number. -/
def streamOf (b : Byte) : Option StreamNo := if h : b.toNat < 12 then some ⟨b.toNat, h⟩ else none

/-- A descriptor handle. -/
def handleOf (b : Byte) : Option Handle := if h : b.toNat < 48 then some ⟨b.toNat, h⟩ else none

/-- A lane number. -/
def laneOf (b : Byte) : Option LaneNo := if h : b.toNat < 8 then some ⟨b.toNat, h⟩ else none

/-- A slot number. -/
def slotOf (b : Byte) : Option SlotNo := if h : b.toNat < 8 then some ⟨b.toNat, h⟩ else none

/-- A received flag: 0 and 1 are accepted (R174). -/
def flagOf (b : Byte) : Option Bool :=
  match b.toNat with
  | 0 => some false
  | 1 => some true
  | _ => none

/-- A domain code. -/
def domainOf (b : Byte) : Option DomainId :=
  match b.toNat with
  | 0 => some .a
  | 1 => some .b
  | _ => none

/-- A source code. -/
def sourceOf (b : Byte) : Option Source :=
  match b.toNat with
  | 0 => some .off
  | 1 => some .external
  | 2 => some .internal
  | _ => none

/-- A direction code. -/
def directionOf (b : Byte) : Option Direction :=
  match b.toNat with
  | 0 => some .play
  | 1 => some .capture
  | _ => none

/-- A class code. -/
def classOf (b : Byte) : Option StreamClass :=
  match b.toNat with
  | 0 => some .normal
  | 1 => some .override
  | _ => none

/-- An arbitration mode code. -/
def arbModeOf (b : Byte) : Option ArbMode :=
  match b.toNat with
  | 0 => some .fixed
  | 1 => some .rotating
  | _ => none

/-- A start code with the frame number T, read only for AT (Table 10-8). -/
def startOf (b : Byte) (t : FrameNo) : Option Start :=
  match b.toNat with
  | 0 => some .immediate
  | 1 => some (.at t)
  | _ => none

/-- The slot map entries of an OPEN payload from offset `7` on; none when one names a lane or slot above 7. -/
def mapOf : List Byte → Option (List (LaneNo × SlotNo))
  | [] => some []
  | [_] => none
  | l :: k :: rest =>
    match laneOf l, slotOf k, mapOf rest with
    | some l, some k, some m => some ((l, k) :: m)
    | _, _, _ => none

/-! ## Checks -/

/-- The status of the first check that does not hold; none when all hold. -/
def firstFailure : List (Bool × Status) → Option Status
  | [] => none
  | (ok, st) :: rest => if ok then firstFailure rest else some st

/-- The check order of a stream request (R1): the stream number, the state, then the checks of the request, which
begin with the generation for every request but OPEN. -/
def State.checkStream (s : State) (p : List Byte) (accepts : Stream → Bool)
    (own : StreamNo → Stream → List (Bool × Status)) : Except Status StreamNo :=
  match streamOf (byteAt p 0) with
  | none => .error .badField
  | some i =>
    match firstFailure ((accepts (s.stream i), .badState) :: own i (s.stream i)) with
    | some st => .error st
    | none => .ok i

/-- The generation check of R1 step 3. -/
def generationCheck (p : List Byte) (st : Stream) : Bool × Status :=
  (decide (byteAt p 1 = st.generation), .stale)

/-! ## Taking a request -/

/-- The kinds whose refusals carry a subject byte (R178). -/
def Kind.hasSubject : Kind → Bool
  | .identify => false
  | .status => false
  | .reset => false
  | .clearOverride => false
  | .setArbitration => false
  | .setDomain => true
  | .queryTime => true
  | .setLane => true
  | .setMarker => true
  | .openStream => true
  | .closeStream => true
  | .startStream => true
  | .stopStream => true
  | .queryStream => true
  | .submit => true
  | .put => true

/-- Refuse a request of a known kind and a length that fits: the subject byte as the request carried it, where the
kind has one, and nothing else changed (R161, R178). -/
def State.refuse (s : State) (k : Kind) (r : Request) (st : Status) : State :=
  s.reply r st (if k.hasSubject then .subject (byteAt r.payload 0) else .nothing)

/-- Take the oldest request when it is of kind `k` and satisfies `sel`: BAD_LENGTH when its length does not fit
(R161, R176), else `act`. -/
def State.takeKind (s : State) (k : Kind) (sel : Request → Bool) (act : Request → State → State) : State :=
  s.takeHead (fun r => decide (kindOf r.kind = some k) && sel r) fun r s =>
    if lengthFits k r.payload then act r s else s.reply r .badLength .nothing

/-- Every request of its kind. -/
def anyRequest (_ : Request) : Bool := true

/-- Answer a checked request: refuse it with the status of the failed check, or act. -/
def State.answer {α : Type} (s : State) (k : Kind) (r : Request) (check : Except Status α) (act : α → State) : State :=
  match check with
  | .error st => s.refuse k r st
  | .ok x => act x

end Sys2Proof.Machine
end

