-- ==== Sys2Proof/Machine/Queue.lean ====
section
/-! DEFINITION. The life of a descriptor, shared by every command that moves one on: eligibility and span start
(R32 to R36), resolution (R37, R38, R42), pages (R58, R60, R61) and retirement (R44 to R46). -/

namespace Sys2Proof.Machine

/-! ## Resolution -/

/-- The outcomes a play position can have. -/
inductive PlayOutcome where
  | sounded
  | muted
  | skipped
  | late
  deriving DecidableEq, Repr

/-- Count `k` play positions under their outcome. -/
def Counts.addPlay (c : Counts) (o : PlayOutcome) (k : Nat) : Counts :=
  match o with
  | .sounded => { c with sounded := c.sounded + k }
  | .muted => { c with muted := c.muted + k }
  | .skipped => { c with skipped := c.skipped + k }
  | .late => { c with late := c.late + k }

/-- Count one capture position by the kind of its backlog entry (R42). -/
def Counts.addCapture (c : Counts) (k : EntryKind) : Counts :=
  match k with
  | .held _ => { c with stored := c.stored + 1 }
  | .lostZero => { c with lost := c.lost + 1 }
  | .lateZero => { c with late := c.late + 1 }

/-- Entries of a play descriptor's page list with no unresolved position in them once its first `r` positions are
resolved: those wholly below offset r × frame size, and all of them after the last position (R56, R58). -/
def Descriptor.doneEntries (d : Descriptor) (r : Nat) : Nat :=
  if d.frames ≤ r then d.pages.length else r * d.frameSize / Config.pageSize

/-- The next `k` positions of play descriptor `h` are resolved with one outcome, and the pages they end are released
(R37, R38, R35, R58). -/
def State.resolvePlay (s : State) (h : Handle) (o : PlayOutcome) (k : Nat) : State :=
  (s.modDesc h fun d => { d with resolved := d.resolved + k, counts := d.counts.addPlay o k }).releaseEntries h
    ((s.desc h).doneEntries ((s.desc h).resolved + k))

/-! ## DATA claims (R60, R61) -/

/-- The DATA claim for entry `k` of the descriptor's page list, of `n` bytes. -/
def Descriptor.dataClaim (d : Descriptor) (h : Handle) (k n : Nat) (p : PageNo) : Claim :=
  .data { stream := d.stream, generation := d.generation, handle := h, tag := d.tag, offset := Config.pageSize * k,
          count := n, page := p }

/-- The oldest entry that descriptor `h` holds passes to a DATA claim of `n` bytes. -/
def State.passPage (s : State) (h : Handle) (n : Nat) : State :=
  match (s.desc h).heldPages with
  | [] => s
  | p :: _ =>
    (s.raiseClaim ((s.desc h).dataClaim h (s.desc h).gone n p)).modDesc h fun d => { d with gone := d.gone + 1 }

/-- At a capture descriptor's retirement a partly written page passes to a DATA claim, and the pages never written are
released (R61). -/
def State.settleCapture (s : State) (h : Handle) : State :=
  let part := (s.desc h).written % Config.pageSize
  let s := if part = 0 then s else s.passPage h part
  s.releaseEntries h (s.desc h).pages.length

/-! ## Retirement (R44 to R46) -/

/-- The outcome of a descriptor retired by resolution (R45). -/
def Descriptor.resolvedOutcome (d : Descriptor) : DoneOutcome :=
  if d.counts.late = d.frames then .late else .complete

/-- The outcome of a descriptor retired by ABORT (R13, R45). -/
def Descriptor.abortOutcome (d : Descriptor) : DoneOutcome :=
  if d.state = .active ∨ (d.state = .waiting ∧ 0 < d.resolved) then .cut else .discarded

/-- The record of a descriptor retired with outcome `o`: counts, span start and end frame as Table 2-3 gives (R46). -/
def Descriptor.retire (d : Descriptor) (o : DoneOutcome) : Descriptor :=
  { d with
    state := .retired
    outcome := some o
    span := if o = .discarded then none else d.span
    endFrame := if o = .discarded ∨ d.resolved = 0 then none else d.span.map fun S => frameOf S (d.resolved - 1)
    counts := { d.counts with unreached := d.frames - d.resolved } }

/-- Settle the pages of a descriptor that retires (R44 step 3): R58 for play, R61 for capture. -/
def State.settlePages (s : State) (h : Handle) : State :=
  match (s.desc h).direction with
  | .play => s.releaseEntries h (s.desc h).pages.length
  | .capture => s.settleCapture h

/-- Retirement, R44 steps 1 to 4: outcome and counts, out of the queue, pages settled, DONE claim raised. -/
def State.retire (s : State) (i : StreamNo) (h : Handle) (o : DoneOutcome) : State :=
  (((s.modDesc h fun d => d.retire o).modStream i fun st => { st with queue := st.queue.erase h }).settlePages h).raiseClaim
    (.done h)

/-- A STOPPING stream whose queue is empty becomes IDLE and drained (R12). -/
def State.drainIfEmpty (s : State) (i : StreamNo) : State :=
  if (s.stream i).state = .stopping ∧ (s.stream i).queue = [] then
    (s.modStream i fun st =>
      { st with state := .idle, gapOpen := false, record := { st.record with drained := true } }).raiseOnce (.streamEvent i)
  else s

/-- Retirement by the last resolution, with the drain of R44 step 5. -/
def State.retireResolved (s : State) (i : StreamNo) (h : Handle) : State :=
  (s.retire i h (s.desc h).resolvedOutcome).drainIfEmpty i

/-! ## Eligibility (R32 to R36) -/

/-- What eligibility reads of the stream's domain: the counter for a play stream (R33) and the next frame to be
delivered for a capture stream (R34). -/
structure FrameTime where
  playN : FrameNo
  captureD : FrameNo
  deriving DecidableEq, Repr

/-- The frame time outside a frame event: N, and N − 1 when the next frame event delivers, else N (R33, R34). -/
def Domain.now (d : Domain) : FrameTime :=
  { playN := d.counter, captureD := if d.delivers then d.counter - 1 else d.counter }

/-- The frame time within a frame event that finds the counter at N: the counter after the advance, and the frame
N − 1 being delivered (R33, R34). -/
def Domain.atEvent (d : Domain) : FrameTime :=
  { playN := d.counter + 1, captureD := d.counter - 1 }

/-- Every position of the capture descriptor is assigned, passed over or late (R32). -/
def Descriptor.fullyAssigned (d : Descriptor) : Bool :=
  d.eligible && decide (d.frames ≤ d.assigned)

/-- The READY capture descriptor that R32 makes eligible, with the descriptor just ahead of it: the head, or the one
behind a fully assigned one. -/
def State.readyCapture (s : State) (ahead : Option Handle) : List Handle → Option (Handle × Option Handle)
  | [] => none
  | h :: rest =>
    if (s.desc h).state = .ready then some (h, ahead)
    else if (s.desc h).fullyAssigned then s.readyCapture (some h) rest
    else none

/-- The READY play descriptor that R32 makes eligible: the head. -/
def State.readyPlay (s : State) : List Handle → Option (Handle × Option Handle)
  | [] => none
  | h :: _ => if (s.desc h).state = .ready then some (h, none) else none

/-- The next descriptor of stream `i` that becomes eligible (R32). -/
def State.nextEligible (s : State) (i : StreamNo) : Option (Handle × Option Handle) :=
  if (s.stream i).moving then
    match (s.stream i).direction with
    | .play => s.readyPlay (s.stream i).queue
    | .capture => s.readyCapture none (s.stream i).queue
  else none

/-- The span start: `first` for IMMEDIATE, T for AT (R33, R34). -/
def Start.spanStart (st : Start) (first : FrameNo) : FrameNo :=
  match st with
  | .immediate => first
  | .at t => t

/-- The first free frame E of a play stream (R33). -/
def State.firstFree (s : State) (i : StreamNo) (t : FrameTime) : FrameNo :=
  frameOf t.playN (s.stream i).lead

/-- The first frame Q open to a capture descriptor: the later of D and the frame after the last one of the descriptor
ahead of it (R34). -/
def State.firstOpen (s : State) (ahead : Option Handle) (t : FrameTime) : FrameNo :=
  match ahead with
  | none => t.captureD
  | some a =>
    match (s.desc a).span with
    | none => t.captureD
    | some S =>
      let after := frameOf S (s.desc a).frames
      if precedes t.captureD after then after else t.captureD

/-- A play descriptor becomes eligible: S by R33, WAITING, and the positions earlier than E resolved late (R35). -/
def State.makePlayEligible (s : State) (i : StreamNo) (h : Handle) (t : FrameTime) : State :=
  let E := s.firstFree i t
  let S := (s.desc h).start.spanStart E
  (s.modDesc h fun d => { d with state := .waiting, span := some S }).resolvePlay h .late
    (playLateCount S E (s.desc h).frames)

/-- `n` zero positions of descriptor `h` from position `p` on, in position order (R36, R41). -/
def zeroPositionsFrom (h : Handle) (S : FrameNo) (k : EntryKind) (p n : Nat) : List BacklogEntry :=
  (List.range n).map fun j => { handle := h, position := p + j, frame := frameOf S (p + j), kind := k }

/-- A capture descriptor becomes eligible: S by R34, WAITING. Positions earlier than Q join the backlog as late zero
positions, or are all resolved late at once when every position is earlier (R36). -/
def State.makeCaptureEligible (s : State) (i : StreamNo) (h : Handle) (ahead : Option Handle) (t : FrameTime) : State :=
  let Q := s.firstOpen ahead t
  let S := (s.desc h).start.spanStart Q
  let n := lateCount S Q (s.desc h).frames
  if n = (s.desc h).frames then
    s.modDesc h fun d => { d with
      state := .waiting, span := some S, assigned := d.frames, resolved := d.frames,
      counts := { d.counts with late := d.frames } }
  else
    (s.modDesc h fun d => { d with state := .waiting, span := some S, assigned := n }).modStream i fun st =>
      { st with backlog := st.backlog ++ zeroPositionsFrom h S .lateZero 0 n }

/-- Descriptor `h` of stream `i` becomes eligible (R32). -/
def State.makeEligible (s : State) (i : StreamNo) (h : Handle) (ahead : Option Handle) (t : FrameTime) : State :=
  match (s.stream i).direction with
  | .play => s.makePlayEligible i h t
  | .capture => s.makeCaptureEligible i h ahead t

/-- Every position of the queued descriptor is resolved. -/
def Descriptor.spent (d : Descriptor) : Bool :=
  d.eligible && decide (d.frames ≤ d.resolved)

/-- Let the queue of stream `i` come to rest: retire the head while all its positions are resolved, make descriptors
eligible in queue order while R32 holds for one (R32, R35, R36, R44 step 5). The first argument bounds the turns. -/
def State.settleQueue (i : StreamNo) (t : FrameTime) : Nat → State → State
  | 0, s => s
  | k + 1, s =>
    match (s.stream i).queue with
    | [] => s
    | h :: _ =>
      if (s.desc h).spent then State.settleQueue i t k (s.retireResolved i h)
      else
        match s.nextEligible i with
        | none => s
        | some (e, ahead) => State.settleQueue i t k (s.makeEligible i e ahead t)

/-- Turns enough for every queued descriptor to become eligible and retire. -/
def State.turns (s : State) (i : StreamNo) : Nat := 2 * (s.stream i).queue.length + 1

/-- `settleQueue` at frame time `t` with turns enough. -/
def State.settleAt (s : State) (i : StreamNo) (t : FrameTime) : State :=
  State.settleQueue i t (s.turns i) s

/-- `settleQueue` outside a frame event. -/
def State.settle (s : State) (i : StreamNo) : State :=
  s.settleAt i (s.domain (s.stream i).domain).now

end Sys2Proof.Machine
end

