-- ==== Sys2Proof/Machine/Descriptors.lean ====
section
/-! DEFINITION. The Descriptor Pool's commands: SUBMIT and PUT (chapter 2). -/

namespace Sys2Proof.Machine

/-! ## SUBMIT (R28, R29) -/

/-- Pages that `n` bytes need: ceil(n ÷ 512) (R55). -/
def pagesFor (n : Nat) : Nat := (n + (Config.pageSize - 1)) / Config.pageSize

/-- The FREE descriptor with the lowest handle (R29). -/
def State.lowestFree (s : State) : Option Handle :=
  (List.finRange 48).find? fun h => (s.desc h).state = .free

/-- The newest descriptor of the queue is LOADING (R28 step 5). -/
def State.newestLoading (s : State) (i : StreamNo) : Bool :=
  match (s.stream i).queue.getLast? with
  | none => false
  | some h => (s.desc h).state = .loading

/-- The frames field of a SUBMIT payload (Table 10-8). -/
def submitFrames (p : List Byte) : Nat := (field2 p 4).toNat

/-- Bytes of the descriptor that a SUBMIT asks for: frames × channels × memory width (Table 2-1). -/
def submitBytes (p : List Byte) (st : Stream) : Nat := submitFrames p * st.frameSize

/-- The checks of SUBMIT (R28), with the handle and start that they find. -/
def State.checkSubmit (s : State) (p : List Byte) : Except Status (StreamNo × Handle × Start) :=
  let start := startOf (byteAt p 6) (field4 p 7)
  match s.checkStream p (fun st => st.state = .idle || st.state = .running) (fun i st =>
      [ generationCheck p st,
        (decide (1 ≤ submitFrames p ∧ submitFrames p ≤ Config.maxFrames) && start.isSome &&
          decide (submitBytes p st ≤ Config.maxBytes), .badField),
        (decide (st.direction = .capture) || !s.newestLoading i, .stillLoading),
        (decide (st.queue.length < st.depth), .queueFull),
        (s.lowestFree.isSome, .poolEmpty),
        (decide (pagesFor (submitBytes p st) ≤ s.freeList.length), .pagesShort) ]) with
  | .error st => .error st
  | .ok i =>
    match s.lowestFree, start with
    | some h, some a => .ok (i, h, a)
    | _, _ => .error .poolEmpty

/-- The record of a descriptor just submitted (R29). -/
def submitted (i : StreamNo) (st : Stream) (p : List Byte) (a : Start) (pages : List PageNo) : Descriptor :=
  { Descriptor.blank with
    state := (match st.direction with
      | .play => .loading
      | .capture => .ready)
    stream := i, generation := st.generation, direction := st.direction, tag := field2 p 2, frames := submitFrames p,
    bytes := submitBytes p st, start := a, pages := pages }

/-- SUBMIT takes effect: the record, its pages from the head of the free list, the tail of the queue, and the test of
R32 (R29, R55). -/
def State.submit (s : State) (p : List Byte) (i : StreamNo) (h : Handle) (a : Start) : State :=
  let n := pagesFor (submitBytes p (s.stream i))
  let s1 := (s.modDesc h fun _ => submitted i (s.stream i) p a (s.freeList.take n)).modStream i fun st =>
    { st with queue := st.queue ++ [h] }
  ({ s1 with freeList := s.freeList.drop n } : State).settle i

/-- SUBMIT (R28, R29). -/
def execSubmit (s : State) : Out :=
  .next (s.takeKind .submit anyRequest fun r s =>
    s.answer .submit r (s.checkSubmit r.payload) fun (i, h, a) =>
      (s.submit r.payload i h a).reply r .ok (.submit i h (pagesFor (submitBytes r.payload (s.stream i)))))

/-! ## PUT (R31) -/

/-- Handle `h` is that of the stream's LOADING descriptor (R31 step 5). -/
def State.isLoadingOf (s : State) (i : StreamNo) (h : Option Handle) : Bool :=
  match h with
  | none => false
  | some h => decide (h ∈ (s.stream i).queue) && decide ((s.desc h).state = .loading)

/-- Loaded bytes and `n` more fit the descriptor (R31 step 6). -/
def State.fitsLoad (s : State) (h : Option Handle) (n : Nat) : Bool :=
  match h with
  | none => false
  | some h => decide ((s.desc h).loaded + n ≤ (s.desc h).bytes)

/-- The data bytes of a PUT payload (Table 10-8). -/
def putData (p : List Byte) : List Byte := p.drop 3

/-- The checks of PUT (R31). -/
def State.checkPut (s : State) (p : List Byte) : Except Status (StreamNo × Handle) :=
  let h := handleOf (byteAt p 2)
  match s.checkStream p (fun st => decide (st.direction = .play) && st.isOpen) (fun i st =>
      [ generationCheck p st, (h.isSome, .badField), (s.isLoadingOf i h, .notLoading),
        (s.fitsLoad h (putData p).length, .overlength) ]) with
  | .error st => .error st
  | .ok i =>
    match h with
    | none => .error .badField
    | some h => .ok (i, h)

/-- A descriptor after `n` more bytes are loaded: READY when the last one is in (R31). -/
def Descriptor.load (d : Descriptor) (n : Nat) : Descriptor :=
  { d with loaded := d.loaded + n, state := if d.loaded + n = d.bytes then .ready else d.state }

/-- PUT takes effect: the bytes at the next offsets, loaded bytes up, and the test of R32 (R31). -/
def State.put (s : State) (i : StreamNo) (h : Handle) (bs : List Byte) : State :=
  (({ s with mem := writeOffsets (s.desc h) (s.desc h).loaded bs s.mem } : State).modDesc h fun d =>
    d.load bs.length).settle i

/-- PUT (R31). -/
def execPut (s : State) : Out :=
  .next (s.takeKind .put anyRequest fun r s =>
    s.answer .put r (s.checkPut r.payload) fun (i, h) =>
      (s.put i h (putData r.payload)).reply r .ok (.put i h ((s.desc h).loaded + (putData r.payload).length)))

end Sys2Proof.Machine
end

