-- ==== Sys2Proof/Machine/FrameEvent.lean ====
section
/-! DEFINITION. The frame event of a domain (R97): slots composed (R114, R116, R117), play streams settled (R73, R75),
the receive frame delivered (R40, R41, R79, R119), frames classified for gap accounting (R19 to R22), the counter
advanced. -/

namespace Sys2Proof.Machine

/-! ## Composing transmit frames (R110, R114, R116, R117) -/

/-- The value that the ring entry at frame N of stream `i` gives to a position: packed by R112, zero for MUTED and
FILL; none when the stream holds no entry there. -/
def State.entrySlot (s : State) (W : Nat) (i : StreamNo) (l : LaneNo) (k : SlotNo) : Option Word32 :=
  match (s.stream i).ring.head? with
  | none => none
  | some (.sample xs) => some (packSlot W (s.stream i).width (xs.getD ((s.stream i).map.idxOf (l, k)) 0))
  | some .muted => some 0
  | some .fill => some 0

/-- The value an owner gives, if there is an owner and it holds an entry. -/
def State.ownerSlot (s : State) (W : Nat) (o : Option StreamNo) (l : LaneNo) (k : SlotNo) : Option Word32 :=
  match o with
  | none => none
  | some i => s.entrySlot W i l k

/-- One transmit slot: overlay, else base, else silence (R114). -/
def State.composeSlot (s : State) (W : Nat) (l : LaneNo) (k : SlotNo) : Word32 :=
  match s.ownerSlot W (s.txOverlay l k) l k with
  | some x => x
  | none =>
    match s.ownerSlot W (s.txBase l k) l k with
    | some x => x
    | none => 0

/-- The slot numbers of a frame. -/
def slotNumbers (n : Nat) : List SlotNo := (List.finRange 8).filter fun k => k.val < n

/-- Replace slot bit 0 of slot 0 (R116). -/
def setMarkerBit (b : Bool) : List Word32 → List Word32
  | [] => []
  | x :: rest => ((x &&& ~~~(1 : Word32)) ||| (if b then 1 else 0)) :: rest

/-- Bit 31 − (N mod 32) of a marker word (R116). -/
def markerBit (w : Word32) (n : FrameNo) : Bool := w.getLsbD (31 - n.toNat % 32)

/-- The staged marker word is taken up at a frame with N mod 32 = 0, whatever the lane's enables (R117). -/
def Lane.takeUp (ln : Lane) (n : FrameNo) : Lane :=
  if n.toNat % 32 = 0 then
    match ln.staged with
    | none => ln
    | some w => { ln with current := w, staged := none }
  else ln

/-- The transmit frame that a lane composes for frame N, none when its transmit enable is clear (R106, R110). -/
def State.composeFrame (s : State) (dom : Domain) (l : LaneNo) (ln : Lane) : Option (List Word32) :=
  if ln.txEnable then
    let slots := (slotNumbers dom.slots).map fun k => s.composeSlot dom.width l k
    some (if ln.txMarker then setMarkerBit (markerBit ln.current dom.counter) slots else slots)
  else none

/-- Every lane of the domain takes up its staged word and begins to shift out the frame it composes from the rings and
owners as they stand at the event. -/
def State.transmit (s : State) (d : DomainId) : State :=
  s.mapLanesOf d fun l ln =>
    let ln' := ln.takeUp (s.domain d).counter
    { ln' with txFrame := s.composeFrame (s.domain d) l ln' }

/-! ## Gap accounting (R19 to R22) -/

/-- How a stream's event frame is classified: `gap`; `nonGap` for played, resolved, assigned and wait frames;
`unclassified` for an event that delivers no frame, and for a frame to which none of R19's cases applies (log
entry 25). -/
inductive FrameClass where
  | gap
  | nonGap
  | unclassified
  deriving DecidableEq, Repr

/-- A gap begins, or goes on (R21). -/
def Stream.gapFrame (st : Stream) (f : FrameNo) : Stream :=
  if st.gapOpen then { st with record := { st.record with gapFrames := bump st.record.gapFrames } }
  else { st with gapOpen := true, record := { st.record with
    gapStart := some f, gapEnd := none, gapFrames := bump st.record.gapFrames } }

/-- A gap ends (R22). -/
def Stream.gapClosed (st : Stream) (f : FrameNo) : Stream :=
  { st with gapOpen := false, record := { st.record with gapEnd := some f } }

/-- Gap accounting of one stream for its event frame `f`. -/
def State.account (s : State) (i : StreamNo) (c : FrameClass) (f : FrameNo) : State :=
  match c with
  | .unclassified => s
  | .gap =>
    if (s.stream i).sounding then
      let s' := s.modStream i fun st => st.gapFrame f
      if (s.stream i).gapOpen then s' else s'.raiseOnce (.streamEvent i)
    else s
  | .nonGap =>
    if (s.stream i).gapOpen then (s.modStream i fun st => st.gapClosed f).raiseOnce (.streamEvent i) else s

/-! ## Play streams at the event (R73, R75) -/

/-- A committed entry of this kind sets the sounding flag (R18, R73). -/
def RingEntry.sounds : RingEntry → Bool
  | .sample _ => true
  | .muted => true
  | .fill => false

/-- Commit the entry at frame N of a RUNNING or STOPPING stream (R73 step 1). -/
def Stream.commit (st : Stream) : Stream :=
  match st.ring with
  | [] => st
  | e :: rest => { st with ring := rest, sounding := st.sounding || e.sounds }

/-- The head descriptor of stream `i` with an unresolved position whose frame is `n` (R73 step 2). -/
def State.dueHead (s : State) (i : StreamNo) (n : FrameNo) : Option Handle :=
  match (s.stream i).queue with
  | [] => none
  | h :: _ =>
    if (s.desc h).eligible ∧ (s.desc h).resolved < (s.desc h).frames ∧
        (s.desc h).span.map (fun S => frameOf S (s.desc h).resolved) = some n then some h
    else none

/-- The due position is resolved skipped or late, the move that carries it becomes void, and the queue comes to rest
(R38, R73 step 2). -/
def State.resolveDue (s : State) (i : StreamNo) (h : Handle) (t : FrameTime) : State :=
  let p := (s.desc h).resolved
  let o := if (s.desc h).state = .active then PlayOutcome.skipped else PlayOutcome.late
  (((s.voidIf fun m => decide (m.stream = i) && decide (m.handle = h) && decide (m.position = p)).resolvePlay h o 1).settleAt
    i t)

/-- The class of an event frame N of a play stream that found its lead 0 and had no due position (R19). -/
def State.idlePlayClass (s : State) (i : StreamNo) (n : FrameNo) : FrameClass :=
  match (s.stream i).queue with
  | [] => .gap
  | h :: _ =>
    match (s.desc h).state, (s.desc h).span with
    | .loading, _ => .gap
    | .waiting, some S => if precedes n S then .nonGap else .unclassified
    | _, _ => .unclassified

/-- A play stream of the domain at the event that commits frame N: R73 when RUNNING or STOPPING, R75 when IDLE. -/
def State.playEvent (s : State) (i : StreamNo) (n : FrameNo) (t : FrameTime) : State :=
  if (s.stream i).moving then
    if 0 < (s.stream i).lead then (s.modStream i Stream.commit).account i .nonGap n
    else
      match s.dueHead i n with
      | some h => (s.resolveDue i h t).account i .nonGap n
      | none => s.account i (s.idlePlayClass i n) n
  else s.modStream i fun st => { st with ring := st.ring.tail }

/-! ## Capture streams at the event (R40, R41, R78, R79) -/

/-- The oldest held frame of a backlog becomes a lost zero position in its place (R79). -/
def convertOldestHeld : List BacklogEntry → List BacklogEntry
  | [] => []
  | e :: rest => if e.kind.isHeld then { e with kind := .lostZero } :: rest else e :: convertOldestHeld rest

/-- An overrun, when the held frame count has come to 5 (R79). -/
def State.overrun (s : State) (i : StreamNo) : State :=
  if Config.heldFrames < s.heldCount i then
    s.modStream i fun st => { st with backlog := convertOldestHeld st.backlog }
  else s

/-- Frame F is assigned to position `p` of descriptor `h` and joins the backlog as a held frame (R40, R18). -/
def State.assign (s : State) (i : StreamNo) (h : Handle) (p : Nat) (f : FrameNo) (xs : List Word32) : State :=
  ((s.modDesc h fun d => { d with state := .active, assigned := p + 1 }).modStream i fun st =>
    { st with
      backlog := st.backlog ++ [{ handle := h, position := p, frame := f, kind := .held xs }]
      sounding := true }).overrun i

/-- The oldest eligible descriptor of the queue with an unassigned position. -/
def State.openDesc (s : State) (q : List Handle) : Option Handle :=
  q.find? fun h => (s.desc h).eligible && decide ((s.desc h).assigned < (s.desc h).frames)

/-- Offer the delivered frame F with the stream's samples `xs`: pass over the positions before F (R41), then assign F
(R40); a descriptor that becomes fully assigned lets the next one be tested, and one that F lies beyond lets F be
offered to it. The first argument bounds the descriptors tried; the answer says whether F was assigned. -/
def State.offer (i : StreamNo) (t : FrameTime) (f : FrameNo) (xs : List Word32) : Nat → State → State × Bool
  | 0, s => (s, false)
  | k + 1, s =>
    match s.openDesc (s.stream i).queue with
    | none => (s, false)
    | some h =>
      let d := s.desc h
      let S := d.span.getD 0
      let n := lateCount (frameOf S d.assigned) f (d.frames - d.assigned)
      let p := d.assigned + n
      let s1 := (s.modDesc h fun d => { d with assigned := p }).modStream i fun st =>
        { st with backlog := st.backlog ++ zeroPositionsFrom h S .lostZero d.assigned n }
      if d.frames ≤ p then State.offer i t f xs k (s1.settleAt i t)
      else if frameOf S p = f then ((s1.assign i h p f xs).settleAt i t, true)
      else (s1, false)

/-- The class of a delivered frame F that was not assigned (R20). -/
def State.unassignedClass (s : State) (i : StreamNo) (f : FrameNo) : FrameClass :=
  if (s.stream i).queue.any (fun h =>
      (s.desc h).state = .waiting && (match (s.desc h).span with
        | some S => precedes f S
        | none => false)) then .nonGap
  else .gap

/-- The samples of a delivered frame for a stream, in slot-map order: the slot's top bits for a lane that gathered the
frame (R113), else a free value (log entry 8). -/
def State.capturedSamples (s : State) (W : Nat) (rx : RxFrame) (st : Stream) : List Word32 :=
  st.map.map fun (l, k) =>
    unpackSlot W st.width
      (if (s.lane l).gathering then rxSlot rx W l k.val else lowBits W (Config.ungatheredSlot s.freeCount l k))

/-- A capture stream of the domain at an event that delivers frame F (R20, R40, R41). An IDLE stream is offered no
frame (R3). -/
def State.captureEvent (s : State) (i : StreamNo) (W : Nat) (rx : RxFrame) (f : FrameNo) (t : FrameTime) : State :=
  if (s.stream i).moving then
    let r := State.offer i t f (s.capturedSamples W rx (s.stream i)) ((s.stream i).queue.length + 1) s
    r.1.account i (if r.2 then .nonGap else r.1.unassignedClass i f) f
  else s

/-! ## Received markers at the event (R119) -/

/-- The assembly after the marker bit `b` of delivered frame F, and the word of a block it completes. -/
def stepAssembly (a : Option Assembly) (f : FrameNo) (b : Bool) : Option Assembly × Option Word32 :=
  let r := f.toNat % 32
  let bit : Word32 := if b then 1 <<< (31 - r) else 0
  if r = 0 then (some { block := (f >>> 5).setWidth 27, count := 1, word := bit }, none)
  else
    match a with
    | none => (none, none)
    | some a =>
      if a.block = (f >>> 5).setWidth 27 ∧ a.count = r then
        if a.count + 1 = 32 then (none, some (a.word ||| bit))
        else (some { a with count := a.count + 1, word := a.word ||| bit }, none)
      else (none, none)

/-- A lane with receive enable and receive marker enable collects the marker bit of its part of delivered frame F, and
a completed block with a new word raises a MARKER claim (R119). -/
def State.laneEvent (s : State) (l : LaneNo) (W : Nat) (rx : RxFrame) (f : FrameNo) : State :=
  let r := stepAssembly (s.lane l).assembly f ((rxSlot rx W l 0).getLsbD 0)
  let s1 := s.modLane l fun ln => { ln with assembly := r.1 }
  match r.2 with
  | none => s1
  | some w =>
    if (s.lane l).lastReported = some w then s1
    else (s1.modLane l fun ln => { ln with lastReported := some w, eventWord := some w }).raiseOnce (.marker l)

/-! ## The event (R97, R98) -/

/-- What one frame event concerns: a stream of the domain, or a lane that collects a marker bit. -/
inductive Item where
  | stream (i : StreamNo)
  | lane (l : LaneNo)
  deriving DecidableEq, Repr

/-- The number under which an item is ranked (log entry 7). -/
def Item.number : Item → Nat
  | .stream i => i.val
  | .lane l => 12 + l.val

/-- The open streams of the domain, and, when a frame is delivered, the lanes that collect its marker bit. -/
def State.items (s : State) (d : DomainId) : List Item :=
  ((List.finRange 12).filter fun i => (s.stream i).isOpen && decide ((s.stream i).domain = d)).map Item.stream ++
  (if (s.domain d).delivers then
    ((List.finRange 8).filter fun l =>
      decide ((s.lane l).domain = d) && (s.lane l).rxEnable && (s.lane l).rxMarker && (s.lane l).gathering).map Item.lane
   else [])

/-- Insert by rank, behind items of equal rank that stand later. -/
def insertRanked (key : Item → Nat) (x : Item) : List Item → List Item
  | [] => [x]
  | y :: rest => if key x ≤ key y then x :: y :: rest else y :: insertRanked key x rest

/-- Items in rising rank. -/
def sortRanked (key : Item → Nat) : List Item → List Item
  | [] => []
  | x :: rest => insertRanked key x (sortRanked key rest)

/-- One item at the event: `dom` is the domain as the event finds it. -/
def State.itemEvent (dom : Domain) (rx : RxFrame) (s : State) (x : Item) : State :=
  match x with
  | .stream i =>
    match (s.stream i).direction with
    | .play => s.playEvent i dom.counter dom.atEvent
    | .capture => if dom.delivers then s.captureEvent i dom.width rx (dom.counter - 1) dom.atEvent else s
  | .lane l => s.laneEvent l dom.width rx (dom.counter - 1)

/-- The frame event of domain `d`: transmit frame N is composed and committed, receive frame N − 1 delivered unless
the event is the first of a lock (R98), the counter advanced, and gathering begun on the lanes with receive enable
(R107, R111). An event that delivers nothing makes the received-marker assemblies absent (R120). -/
def State.frameEvent (s : State) (d : DomainId) (rx : RxFrame) : State :=
  let dom := s.domain d
  let s1 := s.transmit d
  let s2 := if dom.delivers then s1 else s1.mapLanesOf d fun _ ln => { ln with assembly := none }
  let order := sortRanked (fun x => Config.rank s.freeCount x.number) (s.items d)
  let s3 := order.foldl (State.itemEvent dom rx) s2
  let s4 := s3.modDomain d fun dm => { dm with counter := dm.counter + 1, delivers := true }
  let s5 := s4.mapLanesOf d fun _ ln => { ln with gathering := ln.rxEnable }
  { s5 with freeCount := s5.freeCount + 1 }

end Sys2Proof.Machine
end

