-- ==== Sys2Proof/Machine/Domains.lean ====
section
/-! DEFINITION. The Clock Domains' commands: SET_DOMAIN, QUERY_TIME, FRAME_CLOSED, LOCK_TIMEOUT, GOOD_RUN_TIMEOUT and
GENERATOR_BOUNDARY (chapter 5). -/

namespace Sys2Proof.Machine

/-! ## Lock transitions (R102, R120) -/

/-- The domain event record after a lock transition into `st` with the counter at `n`. -/
def DomainRecord.transition (r : DomainRecord) (st : DomainState) (n : FrameNo) : DomainRecord :=
  { latest := st, transitions := bump r.transitions, counter := n }

/-- The received-marker assembly of every lane of the domain becomes absent (R120). -/
def State.breakAssemblies (s : State) (d : DomainId) : State :=
  s.mapLanesOf d fun _ ln => { ln with assembly := none }

/-- The lanes of the domain stop sending and gathering: TXDn is held low and the frame being gathered is discarded
(R106, R111; log entry 15). -/
def State.stopLanes (s : State) (d : DomainId) : State :=
  s.mapLanesOf d fun _ ln => { ln with txFrame := none, gathering := false }

/-- A change of the domain's state into or out of LOCKED, to the state it now has (R102). -/
def State.lockTransition (s : State) (d : DomainId) : State :=
  ((s.modDomain d fun dm => { dm with record := dm.record.transition dm.state dm.counter }).breakAssemblies d).raiseOnce
    (.domainEvent d)

/-! ## SET_DOMAIN (R89, R90) -/

/-- The configuration that SET DOMAIN carries. -/
structure DomainConfig where
  source : Source
  divider : Nat
  slots : Nat
  width : Nat
  deriving DecidableEq, Repr

/-- The fields of a SET DOMAIN payload, none when one is out of range (R89 step 1). -/
def readSetDomain (p : List Byte) : Option (DomainId × DomainConfig) :=
  match domainOf (byteAt p 0), sourceOf (byteAt p 1) with
  | some d, some src =>
    let divider := (byteAt p 2).toNat
    let slots := (byteAt p 3).toNat
    let width := (byteAt p 4).toNat
    if 1 ≤ divider ∧ divider ≤ 64 ∧ slots ∈ [2, 4, 8] ∧ width ∈ [16, 24, 32] then
      some (d, { source := src, divider := divider, slots := slots, width := width })
    else none
  | _, _ => none

/-- Some position of some lane of the domain has an owner (R89 step 2). -/
def State.domainOwned (s : State) (d : DomainId) : Bool :=
  (List.finRange 8).any fun l => decide ((s.lane l).domain = d) && s.laneOwned l

/-- Some lane of the domain has a marker enable set (R89 step 3). -/
def State.domainMarkers (s : State) (d : DomainId) : Bool :=
  (List.finRange 8).any fun l => decide ((s.lane l).domain = d) && ((s.lane l).txMarker || (s.lane l).rxMarker)

/-- The checks of R89. -/
def State.checkSetDomain (s : State) (p : List Byte) : Except Status (DomainId × DomainConfig) :=
  match readSetDomain p with
  | none => .error .badField
  | some (d, c) =>
    match firstFailure [(!s.domainOwned d, .domainBusy), (!s.domainMarkers d || c.width == 32, .markerWidth)] with
    | some st => .error st
    | none => .ok (d, c)

/-- The state that a source gives a domain at SET DOMAIN (R90). -/
def Source.initialState : Source → DomainState
  | .off => .off
  | .external => .acquiring
  | .internal => .locked

/-- The domain record after SET DOMAIN: frame 0, no measurement, the event record kept (R90). -/
def Domain.configure (dm : Domain) (c : DomainConfig) : Domain :=
  { source := c.source, divider := c.divider, slots := c.slots, width := c.width, state := c.source.initialState,
    counter := 0, goodRun := 0, lastGood := none, measuring := false, delivers := false, record := dm.record }

/-- SET DOMAIN takes effect: a frame in progress is abandoned, and a change into or out of LOCKED is a lock transition
(R90, R120). -/
def State.setDomain (s : State) (d : DomainId) (c : DomainConfig) : State :=
  let old := (s.domain d).state
  let new := c.source.initialState
  let s1 := ((s.modDomain d fun dm => dm.configure c).breakAssemblies d).stopLanes d
  if old ≠ new ∧ (old = .locked ∨ new = .locked) then s1.lockTransition d else s1

/-- SET_DOMAIN (R89, R90). -/
def execSetDomain (s : State) : Out :=
  .next (s.takeKind .setDomain anyRequest fun r s =>
    s.answer .setDomain r (s.checkSetDomain r.payload) fun (d, c) =>
      (s.setDomain d c).reply r .ok (.domain d c.source.initialState 0))

/-! ## QUERY_TIME (R101) -/

/-- The check of R101. -/
def checkQueryTime (p : List Byte) : Except Status DomainId :=
  match domainOf (byteAt p 0) with
  | none => .error .badField
  | some d => .ok d

/-- QUERY_TIME (R101). -/
def execQueryTime (s : State) : Out :=
  .next (s.takeKind .queryTime anyRequest fun r s =>
    s.answer .queryTime r (checkQueryTime r.payload) fun d =>
      s.reply r .ok (.domain d (s.domain d).state (s.domain d).counter))

/-! ## FRAME_CLOSED (R91 to R93, R95, R96) -/

/-- A frame of `bits` rising BCK edges is good (R91). -/
def Domain.goodFrame (dm : Domain) (bits : Nat) : Bool := bits == dm.slots * dm.width

/-- A LOCKED domain becomes LOST with its counter standing; `measuring` says whether an edge has opened the first frame
measured for relock (R93, R94). -/
def State.loseLock (s : State) (d : DomainId) (measuring : Bool) : State :=
  ((s.modDomain d fun dm => { dm with
    state := .lost, goodRun := 0, measuring := measuring, delivers := false }).lockTransition d).stopLanes d

/-- The sixteenth good frame makes the domain LOCKED; the edge that closes it is the first frame event (R92, R95). -/
def State.gainLock (s : State) (d : DomainId) (rx : RxFrame) : State :=
  ((s.modDomain d fun dm => { dm with state := .locked, goodRun := 0, delivers := false }).lockTransition d).frameEvent d rx

/-- A good frame closes: its duration becomes the last good duration (R91), and it is a frame event while LOCKED (R96)
or raises the good run (R92, R95). -/
def State.goodFrameClosed (s : State) (d : DomainId) (duration : Nat) (rx : RxFrame) : State :=
  let s1 := s.modDomain d fun dm => { dm with lastGood := some duration }
  match (s.domain d).state with
  | .locked => s1.frameEvent d rx
  | .off => s
  | .acquiring =>
    if (s.domain d).goodRun + 1 = Config.lockRun then s1.gainLock d rx
    else s1.modDomain d fun dm => { dm with goodRun := dm.goodRun + 1 }
  | .lost =>
    if (s.domain d).goodRun + 1 = Config.lockRun then s1.gainLock d rx
    else s1.modDomain d fun dm => { dm with goodRun := dm.goodRun + 1 }

/-- A bad frame closes: the lock is lost (R93), or the good run returns to 0 (R92, R95). -/
def State.badFrameClosed (s : State) (d : DomainId) : State :=
  match (s.domain d).state with
  | .locked => s.loseLock d true
  | .off => s
  | .acquiring => s.modDomain d fun dm => { dm with goodRun := 0 }
  | .lost => s.modDomain d fun dm => { dm with goodRun := 0 }

/-- FRAME_CLOSED (R91): a rising FCK edge of an EXTERNAL domain closes the measured frame and opens the next; the first
edge after SET DOMAIN or after a lock timeout only opens one (R90, R94; log entry 11). The pins of a domain with another
source are not read (R87; log entry 2). -/
def execFrameClosed (d : DomainId) (bits duration : Nat) (rx : RxFrame) (s : State) : Out :=
  .next (if (s.domain d).source = .external then
    if (s.domain d).measuring then
      if (s.domain d).goodFrame bits then s.goodFrameClosed d duration rx else s.badFrameClosed d
    else s.modDomain d fun dm => { dm with measuring := true }
  else s)

/-! ## Timeouts (R92, R94) -/

/-- The time allowed for the next FCK edge, twice the last good duration, has run out; no timeout runs without a last
good duration (log entry 12). -/
def Domain.timedOut (dm : Domain) (elapsed : Nat) : Bool :=
  match dm.lastGood with
  | none => false
  | some g => decide (2 * g ≤ elapsed)

/-- LOCK_TIMEOUT (R94): a LOCKED EXTERNAL domain becomes LOST, and the frame in progress is abandoned. -/
def execLockTimeout (d : DomainId) (elapsed : Nat) (s : State) : Out :=
  .next (if (s.domain d).source = .external ∧ (s.domain d).state = .locked ∧ (s.domain d).timedOut elapsed then
    s.loseLock d false
  else s)

/-- GOOD_RUN_TIMEOUT (R92, R95): while ACQUIRING or LOST the good run returns to 0 and the last good duration becomes
absent. -/
def execGoodRunTimeout (d : DomainId) (elapsed : Nat) (s : State) : Out :=
  .next (if ((s.domain d).state = .acquiring ∨ (s.domain d).state = .lost) ∧ (s.domain d).timedOut elapsed then
    s.modDomain d fun dm => { dm with goodRun := 0, lastGood := none }
  else s)

/-! ## GENERATOR_BOUNDARY (R96) -/

/-- GENERATOR_BOUNDARY (R96): each boundary of an INTERNAL domain is a frame event; a domain with another source has no
generator running (log entry 2). -/
def execGeneratorBoundary (d : DomainId) (rx : RxFrame) (s : State) : Out :=
  .next (if (s.domain d).source = .internal then s.frameEvent d rx else s)

end Sys2Proof.Machine
end

