-- ==== Sys2Proof/Machine/Engine.lean ====
section
/-! DEFINITION. The Transfer Engine's commands: GRANT, COMPLETION and SET_ARBITRATION (chapter 4). -/

namespace Sys2Proof.Machine

/-! ## Requests for a move (R71, R77) -/

/-- A move of stream `i` is in flight. -/
def State.movingFor (s : State) (i : StreamNo) : Bool :=
  match s.inFlight with
  | none => false
  | some m => decide (m.stream = i)

/-- The frame of the head's first unresolved position, while the head is WAITING or ACTIVE and has one (R71). -/
def State.headFrame (s : State) (i : StreamNo) : Option (Handle × FrameNo) :=
  match (s.stream i).queue with
  | [] => none
  | h :: _ =>
    if (s.desc h).eligible ∧ (s.desc h).resolved < (s.desc h).frames then
      (s.desc h).span.map fun S => (h, frameOf S (s.desc h).resolved)
    else none

/-- Frame `f` lies in the window N to N + 3 (R71). -/
def inWindow (n f : FrameNo) : Bool := decide ((f - n).toNat < Config.ringWindow)

/-- The conditions of R71 for a play stream. -/
def State.playRequests (s : State) (i : StreamNo) : Bool :=
  (s.stream i).moving && !s.movingFor i &&
    (match s.headFrame i with
      | none => false
      | some (_, f) => inWindow (s.domain (s.stream i).domain).counter f)

/-- The conditions of R77 for a capture stream. -/
def State.captureRequests (s : State) (i : StreamNo) : Bool :=
  !(s.stream i).backlog.isEmpty && !s.movingFor i

/-- Stream `i` requests a move. -/
def State.requests (s : State) (i : StreamNo) : Bool :=
  match (s.stream i).direction with
  | .play => s.playRequests i
  | .capture => s.captureRequests i

/-! ## GRANT (R68, R74, R82, R83) -/

/-- The requesting stream that ranks first: OVERRIDE above NORMAL, then by the rotation list (R82). -/
def State.arbitrate (s : State) : Option StreamNo :=
  match s.rotation.find? fun i => s.requests i && decide ((s.stream i).cls = .override) with
  | some i => some i
  | none => s.rotation.find? fun i => s.requests i

/-- The rotation list after a grant to `i` (R83). -/
def rotated (mode : ArbMode) (i : StreamNo) (l : List StreamNo) : List StreamNo :=
  match mode with
  | .fixed => l
  | .rotating => l.erase i ++ [i]

/-- The mute mark that a grant to a stream gives (R74). -/
def State.muteAtGrant (s : State) (i : StreamNo) : Bool :=
  decide ((s.stream i).cls = .normal) && s.ovr.latch

/-- The in-flight record of a play move for the head's first unresolved position (R68). -/
def State.playMove (s : State) (i : StreamNo) (h : Handle) (f : FrameNo) : Move :=
  { stream := i, generation := (s.stream i).generation, direction := .play, handle := h,
    position := (s.desc h).resolved, frame := f, kind := none, mute := s.muteAtGrant i, void := false }

/-- The in-flight record of a capture move for a backlog entry (R68). -/
def State.captureMove (s : State) (i : StreamNo) (e : BacklogEntry) : Move :=
  { stream := i, generation := (s.stream i).generation, direction := .capture, handle := e.handle,
    position := e.position, frame := e.frame, kind := some e.kind, mute := s.muteAtGrant i, void := false }

/-- Grant a play move to `i`. The lead is left as it is (R68). -/
def State.grantPlay (s : State) (i : StreamNo) : State :=
  match s.headFrame i with
  | none => s
  | some (h, f) => { s with inFlight := some (s.playMove i h f), rotation := rotated s.mode i s.rotation }

/-- Grant a capture move to `i`: its oldest entry leaves the backlog (R68). -/
def State.grantCapture (s : State) (i : StreamNo) : State :=
  match (s.stream i).backlog with
  | [] => s
  | e :: rest =>
    { s.modStream i (fun st => { st with backlog := rest }) with
      inFlight := some (s.captureMove i e), rotation := rotated s.mode i s.rotation }

/-- Grant a move to `i` (R68). -/
def State.grantTo (s : State) (i : StreamNo) : State :=
  match (s.stream i).direction with
  | .play => s.grantPlay i
  | .capture => s.grantCapture i

/-- GRANT (R68, R82): when the engine is idle and a stream requests. -/
def execGrant (s : State) : Out :=
  .next (match s.inFlight with
    | some _ => s
    | none =>
      match s.arbitrate with
      | none => s
      | some i => s.grantTo i)

/-! ## COMPLETION (R69, R72, R77) -/

/-- The ring entry that a play move places: MUTED under the mute mark, else the position's samples (R72, R74). -/
def State.placedEntry (s : State) (m : Move) : RingEntry :=
  if m.mute then .muted
  else .sample ((List.range (s.stream m.stream).channels).map fun k =>
    readSample s.mem (s.desc m.handle) (s.stream m.stream).width m.position k)

/-- The ring of a play stream after entry `e` is placed at the frame `n` frames past N: FILL in the frames between, the
lead `n` + 1 (R72). -/
def placeInRing (ring : List RingEntry) (n : Nat) (e : RingEntry) : List RingEntry :=
  ring.take n ++ List.replicate (n - ring.length) .fill ++ [e]

/-- A play completion that is not void (R72, R37). -/
def State.completePlay (s : State) (m : Move) : State :=
  let n := (m.frame - (s.domain (s.stream m.stream).domain).counter).toNat
  let e := s.placedEntry m
  let o := if m.mute then PlayOutcome.muted else PlayOutcome.sounded
  (((s.modStream m.stream fun st => { st with ring := placeInRing st.ring n e }).modDesc m.handle fun d =>
    { d with state := .active }).resolvePlay m.handle o 1).settle m.stream

/-- The bytes that a capture move writes: the samples of a held frame, zeros under the mute mark or for a zero position
(R42, R74). -/
def Move.captureBytes (m : Move) (w channels : Nat) : List Byte :=
  match m.kind with
  | some (.held xs) => if m.mute then List.replicate (channels * w) 0 else xs.flatMap (sampleBytes w)
  | _ => List.replicate (channels * w) 0

/-- Entry `k` of the page list passes to a DATA claim when the written run has come past its byte 511 (R60). -/
def State.passFilled (s : State) (h : Handle) : State :=
  if (s.desc h).gone < (s.desc h).written / Config.pageSize then s.passPage h Config.pageSize else s

/-- A capture completion that is not void: the bytes written, the position resolved by its entry's kind, a filled page
handed on, and the queue brought to rest (R77, R42, R60, R43). -/
def State.completeCapture (s : State) (m : Move) (k : EntryKind) : State :=
  let d := s.desc m.handle
  let st := s.stream m.stream
  let off := m.position * d.frameSize
  ((({ s with mem := writeOffsets d off (m.captureBytes st.width st.channels) s.mem } : State).modDesc m.handle fun d =>
    { d with resolved := d.resolved + 1, written := off + d.frameSize, counts := d.counts.addCapture k }).passFilled
      m.handle).settle m.stream

/-- COMPLETION (R69): the engine becomes idle, and a move that is not void takes effect. -/
def execCompletion (s : State) : Out :=
  .next (match s.inFlight with
    | none => s
    | some m =>
      let s1 : State := { s with inFlight := none }
      if m.void then s1
      else
        match m.kind with
        | none => s1.completePlay m
        | some k => s1.completeCapture m k)

/-! ## SET_ARBITRATION (R84) -/

/-- The check of R84. -/
def checkSetArbitration (p : List Byte) : Except Status ArbMode :=
  match arbModeOf (byteAt p 0) with
  | none => .error .badField
  | some m => .ok m

/-- SET_ARBITRATION (R84): the mode recorded, the rotation list ascending. -/
def execSetArbitration (s : State) : Out :=
  .next (s.takeKind .setArbitration anyRequest fun r s =>
    s.answer .setArbitration r (checkSetArbitration r.payload) fun m =>
      ({ s with mode := m, rotation := List.finRange 12 } : State).reply r .ok .nothing)

end Sys2Proof.Machine
end

