-- ==== Sys2Proof/Machine/Lanes.lean ====
section
/-! DEFINITION. The Lanes' commands: SET_LANE and SET_MARKER (chapter 6). -/

namespace Sys2Proof.Machine

/-- The configuration that SET LANE carries. -/
structure LaneConfig where
  domain : DomainId
  tx : Bool
  rx : Bool
  txMarker : Bool
  rxMarker : Bool
  deriving DecidableEq, Repr

/-- The fields of a SET LANE payload, none when one is out of range (R108 step 1). -/
def readSetLane (p : List Byte) : Option (LaneNo × LaneConfig) :=
  match laneOf (byteAt p 0), domainOf (byteAt p 1), flagOf (byteAt p 2), flagOf (byteAt p 3), flagOf (byteAt p 4),
      flagOf (byteAt p 5) with
  | some l, some d, some tx, some rx, some txm, some rxm =>
    some (l, { domain := d, tx := tx, rx := rx, txMarker := txm, rxMarker := rxm })
  | _, _, _, _, _, _ => none

/-- The checks of R108. -/
def State.checkSetLane (s : State) (p : List Byte) : Except Status (LaneNo × LaneConfig) :=
  match readSetLane p with
  | none => .error .badField
  | some (l, c) =>
    match firstFailure [(!s.laneOwned l, .laneInUse),
        (!(c.txMarker || c.rxMarker) || (s.domain c.domain).width == 32, .markerWidth)] with
    | some st => .error st
    | none => .ok (l, c)

/-- A lane after SET LANE: configured, its frames cut off, its received-marker state reset; its marker words kept
(R109). -/
def Lane.configure (ln : Lane) (c : LaneConfig) : Lane :=
  { ln with
    domain := c.domain, txEnable := c.tx, rxEnable := c.rx, txMarker := c.txMarker, rxMarker := c.rxMarker,
    assembly := none, lastReported := none, txFrame := none, gathering := false }

/-- SET_LANE (R108, R109). -/
def execSetLane (s : State) : Out :=
  .next (s.takeKind .setLane anyRequest fun r s =>
    s.answer .setLane r (s.checkSetLane r.payload) fun (l, c) =>
      (s.modLane l fun ln => ln.configure c).reply r .ok (.lane l c.domain c.tx c.rx c.txMarker c.rxMarker))

/-- The check of R118. -/
def checkSetMarker (p : List Byte) : Except Status LaneNo :=
  match laneOf (byteAt p 0) with
  | none => .error .badField
  | some l => .ok l

/-- SET_MARKER (R118): the word is staged, and the reply shows whether it replaced one. -/
def execSetMarker (s : State) : Out :=
  .next (s.takeKind .setMarker anyRequest fun r s =>
    s.answer .setMarker r (checkSetMarker r.payload) fun l =>
      (s.modLane l fun ln => { ln with staged := some (field4 r.payload 1) }).reply r .ok
        (.marker l (s.lane l).staged.isSome))

end Sys2Proof.Machine
end

