-- ==== Sys2Proof/Machine/Override.lean ====
section
/-! DEFINITION. The Override Unit's commands: CLEAR_OVERRIDE, ASSERTION_EDGE and DEASSERTION_EDGE (chapter 7). -/

namespace Sys2Proof.Machine

/-- CLEAR_OVERRIDE (R129): refused LINE_ACTIVE while the line is asserted; else the latch and the record's latch field
become CLEAR. -/
def execClearOverride (s : State) : Out :=
  .next (s.takeKind .clearOverride anyRequest fun r s =>
    if s.ovr.level = .asserted then s.refuse .clearOverride r .lineActive
    else ({ s with ovr := { s.ovr with latch := false, recLatch := false } } : State).reply r .ok (.latch false))

/-- The Override Unit after an edge to `lv` that leaves the latch at `latch` (R124, R127). -/
def OverrideUnit.edge (o : OverrideUnit) (lv : LineLevel) (latch : Bool) : OverrideUnit :=
  { level := lv, latch := latch, recLevel := lv, edges := bump o.edges, recLatch := latch }

/-- The move in flight receives the mute mark when its stream is of class NORMAL (R74, R125). -/
def State.muteInFlight (s : State) : State :=
  { s with inFlight := s.inFlight.map fun m =>
      { m with mute := m.mute || decide ((s.stream m.stream).cls = .normal) } }

/-- ASSERTION_EDGE (R125, R127): a line asserted already has no such edge (R124; log entry 21). -/
def execAssertionEdge (s : State) : Out :=
  .next (if s.ovr.level = .asserted then s
    else ({ s.muteInFlight with ovr := s.ovr.edge .asserted true } : State).raiseOnce .overrideEvent)

/-- DEASSERTION_EDGE (R126, R127): a line deasserted already has no such edge (R124; log entry 21). -/
def execDeassertionEdge (s : State) : Out :=
  .next (if s.ovr.level = .deasserted then s
    else ({ s with ovr := s.ovr.edge .deasserted s.ovr.latch } : State).raiseOnce .overrideEvent)

end Sys2Proof.Machine
end

