-- ==== Sys2Proof/Machine/Flags.lean ====
section
/-! DEFINITION. The flags byte of the outbound header (Table 10-3, R131, R158) and the fate of an inbound frame that
sets LAST_BAD, LAST_SEQ and LAST_FULL. -/

namespace Sys2Proof.Machine

/-- A flag as a bit of the flags byte. -/
def flagBit (b : Bool) (k : Nat) : Byte := if b then 1 <<< k else 0

/-- The flags byte as it stands at CSn falling: bits 0 to 2 by R158, bits 3 and 4 by R131 (Table 10-3). -/
def State.headerFlags (s : State) : Byte :=
  flagBit s.port.lastBad 0 ||| flagBit s.port.lastSeq 1 ||| flagBit s.port.lastFull 2 ||| flagBit s.ovr.latch 3 |||
    flagBit (decide (s.ovr.level = .asserted)) 4

/-- What became of an exchange's inbound frame (Table 9-3). -/
inductive Fate where
  | noFrame
  | bad
  | nop
  | duplicate
  | accepted
  | full
  | outOfSequence
  deriving DecidableEq, Repr

/-- The three flags are set anew at the end of each exchange (R158). -/
def Port.setFlags (p : Port) (f : Fate) : Port :=
  { p with lastBad := f == .bad, lastSeq := f == .outOfSequence, lastFull := f == .full }

end Sys2Proof.Machine
end

