-- ==== Sys2Proof/Machine/Layout.lean ====
section
/-! DEFINITION. The bytes of frames and messages (chapter 10): the check value (R154), reply payloads (R178, R179),
report payloads (R180), the outbound frame (R152, R175) and the judging of an inbound frame (R156). -/

namespace Sys2Proof.Machine

/-! ## Field encodings (R174) -/

/-- A number as 1 byte. -/
def enc1 (n : Nat) : List Byte := [BitVec.ofNat 8 n]

/-- A number as 2 bytes, least significant first. -/
def enc2 (n : Nat) : List Byte := [BitVec.ofNat 8 n, BitVec.ofNat 8 (n / 256)]

/-- A 32-bit number as 4 bytes, least significant first. -/
def enc4 (x : BitVec 32) : List Byte :=
  [x.setWidth 8, (x >>> 8).setWidth 8, (x >>> 16).setWidth 8, (x >>> 24).setWidth 8]

/-- A flag: 1 for set, 0 for clear. -/
def encFlag (b : Bool) : List Byte := [if b then 1 else 0]

/-- An optional frame number: 5 bytes, the first 1 when it is present; four zero bytes when it is absent. -/
def encOpt : Option FrameNo → List Byte
  | none => [0, 0, 0, 0, 0]
  | some x => 1 :: enc4 x

/-! ## Codes (Table 10-6, Table 10-7) -/

/-- Domain code. -/
def encDomain : DomainId → List Byte
  | .a => [0]
  | .b => [1]

/-- Domain state code. -/
def encDomainState : DomainState → List Byte
  | .off => [0]
  | .acquiring => [1]
  | .locked => [2]
  | .lost => [3]

/-- Direction code. -/
def encDirection : Direction → List Byte
  | .play => [0]
  | .capture => [1]

/-- Class code. -/
def encClass : StreamClass → List Byte
  | .normal => [0]
  | .override => [1]

/-- Stream state code. -/
def encStreamState : StreamState → List Byte
  | .closed => [0]
  | .idle => [1]
  | .running => [2]
  | .stopping => [3]

/-- Descriptor state code. -/
def encDescState : DescState → List Byte
  | .free => [0]
  | .loading => [1]
  | .ready => [2]
  | .waiting => [3]
  | .active => [4]
  | .retired => [5]

/-- Arbitration mode code. -/
def encArbMode : ArbMode → List Byte
  | .fixed => [0]
  | .rotating => [1]

/-- Outcome code. -/
def encOutcome : DoneOutcome → List Byte
  | .complete => [0]
  | .late => [1]
  | .cut => [2]
  | .discarded => [3]

/-- Line level code. -/
def encLevel : LineLevel → List Byte
  | .deasserted => [0]
  | .asserted => [1]

/-- Reset cause code. -/
def encCause : ResetCause → List Byte
  | .pin => [0]
  | .request => [1]

/-- Status code (Table 10-7). -/
def encStatus : Status → List Byte
  | .ok => [0]
  | .unknownKind => [1]
  | .badLength => [2]
  | .badField => [3]
  | .badState => [4]
  | .stale => [5]
  | .slotTaken => [6]
  | .domainMismatch => [7]
  | .domainOff => [8]
  | .domainBusy => [9]
  | .laneInUse => [10]
  | .laneDisabled => [11]
  | .widthMismatch => [12]
  | .queueFull => [13]
  | .poolEmpty => [14]
  | .pagesShort => [15]
  | .stillLoading => [16]
  | .notLoading => [17]
  | .overlength => [18]
  | .lineActive => [19]
  | .markerWidth => [20]

/-! ## Replies (R178, Table 10-9, Table 10-10) -/

/-- The capacities of the IDENTIFY reply (Table 9-6). -/
def encIdentify : List Byte :=
  enc1 Config.vendorCode ++ enc2 Config.partCode ++ enc1 Config.revision ++ enc1 Config.lanes ++ enc1 Config.domains ++
    enc1 Config.streams ++ enc1 Config.channels ++ enc1 Config.depthLimit ++ enc1 Config.descriptors ++
    enc2 Config.maxFrames ++ enc2 Config.maxBytes ++ enc2 Config.pages ++ enc2 Config.pageSize ++
    enc1 Config.inboundQueue ++ enc1 Config.reportEntries ++ enc2 Config.maxPayload

/-- The STATUS results (Table 10-9). -/
def encStatusView (v : StatusView) : List Byte :=
  enc1 v.freeDescs ++ enc2 v.freePages ++ enc2 v.claims ++ enc1 v.reports ++ encLevel v.level ++ encFlag v.latch ++
    encDomainState v.stateA ++ enc4 v.counterA ++ encDomainState v.stateB ++ enc4 v.counterB ++ encArbMode v.mode ++
    encFlag v.moving

/-- The event record fields of a stream, as QUERY STREAM and STREAM EVENT carry them. -/
def encStreamRecord (r : StreamRecord) : List Byte :=
  encOpt r.gapStart ++ encOpt r.gapEnd ++ enc2 r.gapFrames ++ encFlag r.drained

/-- One descriptor record of QUERY STREAM. -/
def encDescView (v : DescView) : List Byte :=
  enc1 v.handle.val ++ enc2 v.tag.toNat ++ encDescState v.state ++ encOpt v.span ++ enc2 v.resolved

/-- The QUERY STREAM results (R179, Table 10-10). -/
def encStreamView (v : StreamView) : List Byte :=
  enc1 v.stream.val ++ encStreamState v.state ++ enc1 v.generation.toNat ++ encDirection v.direction ++ encClass v.cls ++
    encFlag v.overlay ++ enc1 v.width ++ enc1 v.depth ++ encDomain v.domain ++ enc1 v.map.length ++
    v.map.flatMap (fun e => enc1 e.1.val ++ enc1 e.2.val) ++ enc1 v.leadOrHeld ++
    enc4 (BitVec.ofNat 32 v.zeroPositions) ++ encFlag v.sounding ++ encFlag v.gapOpen ++ encStreamRecord v.record ++
    enc1 v.descs.length ++ v.descs.flatMap encDescView

/-- The bytes after the common part of a reply (R178). -/
def ReplyBody.encode : ReplyBody → List Byte
  | .nothing => []
  | .subject b => [b]
  | .identify => encIdentify
  | .status v => encStatusView v
  | .domain d st n => encDomain d ++ encDomainState st ++ enc4 n
  | .lane l d tx rx txm rxm => enc1 l.val ++ encDomain d ++ encFlag tx ++ encFlag rx ++ encFlag txm ++ encFlag rxm
  | .marker l replaced => enc1 l.val ++ encFlag replaced
  | .opening i g => enc1 i.val ++ [g]
  | .stream i => enc1 i.val
  | .submit i h n => enc1 i.val ++ enc1 h.val ++ enc1 n
  | .put i h n => enc1 i.val ++ enc1 h.val ++ enc2 n
  | .latch b => encFlag b
  | .queryStream v => encStreamView v

/-- A reply payload: request sequence number, request kind, status, results (R178). -/
def Reply.encode (r : Reply) : List Byte := r.seq :: r.kind :: (encStatus r.status ++ r.body.encode)

/-! ## Reports (R180, Table 10-11) -/

/-- The counts of a DONE report, five for PLAY and four for CAPTURE. -/
def encCounts (d : Direction) (c : Counts) : List Byte :=
  match d with
  | .play => enc2 c.sounded ++ enc2 c.muted ++ enc2 c.skipped ++ enc2 c.late ++ enc2 c.unreached
  | .capture => enc2 c.stored ++ enc2 c.lost ++ enc2 c.late ++ enc2 c.unreached

/-- A DONE payload. -/
def DoneReport.encode (r : DoneReport) : List Byte :=
  enc1 r.stream.val ++ [r.generation] ++ encDirection r.direction ++ enc1 r.handle.val ++ enc2 r.tag.toNat ++
    encOutcome r.outcome ++ encOpt r.span ++ encOpt r.endFrame ++ encCounts r.direction r.counts

/-- The first `n` bytes of a page. -/
def pageBytes (m : Memory) (p : PageNo) (n : Nat) : List Byte := (List.range n).map fun b => m.read (pageAddr p b)

/-- A DATA payload; its bytes are read from the page (R62). -/
def DataClaim.encode (m : Memory) (c : DataClaim) : List Byte :=
  enc1 c.stream.val ++ [c.generation] ++ enc1 c.handle.val ++ enc2 c.tag.toNat ++ enc2 c.offset ++ enc2 c.count ++
    pageBytes m c.page c.count

/-- A report payload. -/
def Report.encode (m : Memory) : Report → List Byte
  | .resetNotice c => encCause c
  | .done r => r.encode
  | .data c => c.encode m
  | .streamEvent i g r => enc1 i.val ++ [g] ++ encStreamRecord r
  | .domainEvent d r => encDomain d ++ encDomainState r.latest ++ enc2 r.transitions ++ enc4 r.counter
  | .overrideEvent lv n latch => encLevel lv ++ enc2 n ++ encFlag latch
  | .marker l w => enc1 l.val ++ enc4 w

/-- The outbound kind code of an entry (Table 10-5). -/
def EntryBody.kindCode : EntryBody → Byte
  | .reply _ => 0x7F
  | .report (.resetNotice _) => 0x80
  | .report (.done _) => 0x81
  | .report (.data _) => 0x82
  | .report (.streamEvent _ _ _) => 0x83
  | .report (.domainEvent _ _) => 0x84
  | .report (.overrideEvent _ _ _) => 0x85
  | .report (.marker _ _) => 0x86

/-- The payload of an entry. -/
def EntryBody.payload (m : Memory) : EntryBody → List Byte
  | .reply r => r.encode
  | .report r => r.encode m

/-! ## The check value (R154) -/

/-- One bit into the check register. -/
def crcBit (c : BitVec 16) (b : Bool) : BitVec 16 :=
  if (b ^^ c.getLsbD 15) then (c <<< 1) ^^^ 0x1021 else c <<< 1

/-- One byte, most significant bit first. -/
def crcByte (c : BitVec 16) (b : Byte) : BitVec 16 :=
  [7, 6, 5, 4, 3, 2, 1, 0].foldl (fun c k => crcBit c (b.getLsbD k)) c

/-- The check value of a header and payload. -/
def checkValue (bs : List Byte) : BitVec 16 := bs.foldl crcByte 0xFFFF

/-! ## The outbound frame (R152, R175, Table 10-2) -/

/-- A frame's bytes: header and payload, then the check value, low byte first. -/
def withCheck (bs : List Byte) : List Byte := bs ++ enc2 (checkValue bs).toNat

/-- The outbound frame composed at CSn falling: the entry at the send cursor, or an IDLE frame. -/
def State.composeOut (s : State) : OutFrame :=
  let common (seq kind : Byte) (payload : List Byte) : List Byte :=
    withCheck ([(0xA6 : Byte), seq, s.port.lastIn] ++ enc1 s.room ++ [s.headerFlags, kind] ++ enc2 payload.length ++ payload)
  match s.cursor with
  | none => { bytes := common 0 0 [], carries := none }
  | some e => { bytes := common e.seq e.body.kindCode (e.body.payload s.mem), carries := some e.seq }

/-! ## The inbound frame (R156, Table 10-1) -/

/-- What the bytes shifted in are judged to be. -/
inductive Inbound where
  | noFrame
  | bad
  | good (seq ack kind : Byte) (payload : List Byte)
  deriving DecidableEq, Repr

/-- The marker of an inbound frame. -/
def inboundMarker : Byte := 0x5C

/-- The judging of R156: marker, length, completeness, check value. -/
def judge (sdi : List Byte) : Inbound :=
  match sdi with
  | m :: seq :: ack :: kind :: l0 :: l1 :: rest =>
    let n := l0.toNat + 256 * l1.toNat
    if m ≠ inboundMarker then .noFrame
    else if Config.maxPayload < n then .bad
    else if rest.length < n + 2 then .bad
    else if enc2 (checkValue ([m, seq, ack, kind, l0, l1] ++ rest.take n)).toNat = (rest.drop n).take 2 then
      .good seq ack kind (rest.take n)
    else .bad
  | m :: _ => if m ≠ inboundMarker then .noFrame else .bad
  | [] => .noFrame

end Sys2Proof.Machine
end

