-- ==== Sys2Proof/Machine/Reset.lean ====
section
/-! DEFINITION. The full reset (R24, R51, R65, R85, R104, R122, R132, R147, R148, R170, R172) and the streams reset
(R25, R52, R66, R86, R149, R171), each the work of every block at one event. -/

namespace Sys2Proof.Machine

/-- A stream after a full reset: Table 1-3; the fields an opening sets are as the last opening left them. -/
def Stream.fullReset (st : Stream) : Stream :=
  { st with
    state := .closed, generation := 0, queue := [], ring := [], backlog := [], sounding := false, gapOpen := false,
    record := StreamRecord.empty }

/-- The Override Unit after a full reset that ends with OVR at `lv`: an asserted line counts as an assertion edge taken
at once (R132). -/
def OverrideUnit.afterReset (lv : LineLevel) : OverrideUnit :=
  match lv with
  | .deasserted => { level := .deasserted, latch := false, recLevel := .deasserted, edges := 0, recLatch := false }
  | .asserted => { level := .asserted, latch := true, recLevel := .asserted, edges := 1, recLatch := true }

/-- The claim list after a full reset: empty, or the OVERRIDE EVENT claim of R132. -/
def claimsAfterReset (lv : LineLevel) : List Claim :=
  match lv with
  | .deasserted => []
  | .asserted => [.overrideEvent]

/-- A full reset with its cause, the level of OVR and of CSn at its end. Page bytes stay as they stand (R57); the
commands that wait and the model's counter are no state of the part. -/
def State.fullReset (s : State) (cause : ResetCause) (lv : LineLevel) (csnLow : Bool) : State :=
  { pending := s.pending
    port := Port.afterReset cause csnLow
    streams := (s.mapStreams Stream.fullReset).streams
    owners := Owners.none
    descs := Vector.replicate 48 Descriptor.blank
    freeList := List.finRange 256
    mem := s.mem
    inFlight := none
    mode := .fixed
    rotation := List.finRange 12
    domA := Domain.afterReset
    domB := Domain.afterReset
    lanes := Vector.replicate 8 Lane.afterReset
    ovr := OverrideUnit.afterReset lv
    claims := claimsAfterReset lv
    freeCount := s.freeCount }

/-- A stream after a streams reset: CLOSED, its generation kept (R25). -/
def Stream.streamsReset (st : Stream) : Stream :=
  { st with
    state := .closed, queue := [], ring := [], backlog := [], sounding := false, gapOpen := false,
    record := StreamRecord.empty }

/-- DOMAIN EVENT, OVERRIDE EVENT and MARKER claims stay through a streams reset (R149). -/
def Claim.staysThroughStreamsReset : Claim → Bool
  | .done _ => false
  | .data _ => false
  | .streamEvent _ => false
  | .streamDetached _ _ _ => false
  | .domainEvent _ => true
  | .overrideEvent => true
  | .marker _ => true

/-- The pages held by DATA entries in the outbound queue (R66). -/
def State.entryPages (s : State) : List PageNo := s.port.outbound.filterMap Entry.page

/-- A streams reset: the streams (R25), descriptors (R52), pages (R66), engine (R86) and claims (R149). The port, the
domains, the lanes and the Override Unit are kept (R171, R105, R123, R133). -/
def State.streamsReset (s : State) : State :=
  { s with
    streams := (s.mapStreams Stream.streamsReset).streams
    owners := Owners.none
    descs := Vector.replicate 48 Descriptor.blank
    freeList := (List.finRange 256).filter fun p => p ∉ s.entryPages
    inFlight := s.inFlight.map fun m => { m with void := true }
    rotation := List.finRange 12
    claims := s.claims.filter Claim.staysThroughStreamsReset }

end Sys2Proof.Machine
end

