-- ==== Sys2Proof/Machine/Port.lean ====
section
/-! DEFINITION. The Exchange Port's commands: PIN_RESET, CSN_FALLING, END_OF_EXCHANGE, UNKNOWN_KIND, IDENTIFY, STATUS,
RESET_FULL and RESET_STREAMS (chapter 9). -/

namespace Sys2Proof.Machine

/-! ## PIN_RESET -/

/-- PIN_RESET (R172): every block stands at its full-reset values, the notice carrying cause PIN. -/
def execPinReset (ovr : LineLevel) (csnLow : Bool) (s : State) : Out :=
  .next (s.fullReset .pin ovr csnLow)

/-! ## CSN_FALLING -/

/-- CSN_FALLING (R152): the outbound frame is composed and fixed. CSn that is low already has no falling edge. -/
def execCsnFalling (s : State) : Out :=
  .next (if s.port.csnLow then s else s.modPort fun p => { p with csnLow := true, frame := some s.composeOut })

/-! ## END_OF_EXCHANGE, the steps of R155 -/

/-- The entry with sequence number `q` is marked SENT and its carried flag is set (R153). -/
def markCarried (q : BitVec 8) (es : List Entry) : List Entry :=
  es.map fun e => if e.seq = q then { e with sent := true, carried := true } else e

/-- Step 1: the entry this exchange carried whole, if the frame counts as sent (R153). -/
def carriedBy (f : OutFrame) (sdi : List Byte) : Option (BitVec 8) :=
  if f.bytes.length ≤ sdi.length then f.carries else none

/-- Step 1 on the port. -/
def Port.settleOutbound (p : Port) (c : Option (BitVec 8)) : Port :=
  match c with
  | none => p
  | some q => { p with outbound := markCarried q p.outbound }

/-- The entries that acknowledgement `a` removes, and those that stay: every entry up to the carried one with that
number (R163). -/
def splitAck (a : BitVec 8) : List Entry → Option (List Entry × List Entry)
  | [] => none
  | e :: rest =>
    if e.carried ∧ e.seq = a then some ([e], rest)
    else
      match splitAck a rest with
      | none => none
      | some (gone, left) => some (e :: gone, left)

/-- Step 3: the acknowledgement removes entries, oldest first, and the pages of the DATA entries among them return to
the tail of the free list in that order (R163, R63). -/
def State.acknowledge (s : State) (a : BitVec 8) : State :=
  match splitAck a s.port.outbound with
  | none => s
  | some (gone, left) =>
    (s.modPort fun p => { p with
      outbound := left
      due := if p.due.any (fun q => gone.any fun e => e.seq = q) then none else p.due }).release (gone.filterMap Entry.page)

/-- Go back: every entry is marked UNSENT and no entry is due (R164). -/
def Port.goBack (p : Port) : Port :=
  { p with outbound := p.outbound.map (fun e => { e with sent := false }), due := none }

/-- The entry numbered `q` stands in the outbound queue. -/
def Port.holds (p : Port) (q : BitVec 8) : Bool := p.outbound.any fun e => e.seq = q

/-- Step 4: go back when the due entry still stands, or when there is one and the exchange brought no good frame
(R164). -/
def Port.dueCheck (p : Port) (good : Bool) : Port :=
  match p.due with
  | none => p
  | some q => if !good || p.holds q then p.goBack else p

/-- Step 5: the carried entry becomes the due entry if it is still marked SENT; else there is none. -/
def Port.setDue (p : Port) (c : Option (BitVec 8)) : Port :=
  { p with due := c.filter fun q => p.outbound.any fun e => decide (e.seq = q) && e.sent }

/-- Step 6: the request of a good frame, and what becomes of it (R157, R159). -/
def State.dealRequest (s : State) (seq kind : Byte) (payload : List Byte) : State × Fate :=
  if kind = nopKind then (s, .nop)
  else if seq = s.port.lastIn ∧ s.port.lastIn ≠ 0 then (s, .duplicate)
  else if seq = nextSeq s.port.lastIn then
    if 0 < s.room then
      (s.modPort fun p => { p with
        inbound := p.inbound ++ [{ seq := seq, kind := kind, payload := payload }], lastIn := seq }, .accepted)
    else (s, .full)
  else (s, .outOfSequence)

/-- Steps 3 to 6 for the frame judged. -/
def State.settleInbound (s : State) (c : Option (BitVec 8)) (fr : Inbound) : State × Fate :=
  match fr with
  | .noFrame => (s.modPort fun p => (p.dueCheck false).setDue c, .noFrame)
  | .bad => (s.modPort fun p => (p.dueCheck false).setDue c, .bad)
  | .good seq ack kind payload =>
    ((s.acknowledge ack).modPort fun p => (p.dueCheck true).setDue c).dealRequest seq kind payload

/-- The end of an exchange in progress, R155 steps 1 to 7. -/
def State.endExchange (s : State) (f : OutFrame) (sdi : List Byte) : State :=
  let c := carriedBy f sdi
  let r := (s.modPort fun p => p.settleOutbound c).settleInbound c (judge sdi)
  r.1.modPort fun p => { p.setFlags r.2 with csnLow := false, frame := none }

/-- END_OF_EXCHANGE (R155). An abandoned exchange ends with nothing evaluated and the three flags clear (R151, R158);
CSn that is high already has no rising edge. -/
def execEndOfExchange (sdi : List Byte) (s : State) : Out :=
  .next (if s.port.csnLow then
    match s.port.frame with
    | some f => s.endExchange f sdi
    | none => s.modPort fun p => { p.setFlags .noFrame with csnLow := false }
  else s)

/-! ## Device requests -/

/-- UNKNOWN_KIND (R161): a kind code missing from Table 10-4 is refused with the common part alone. -/
def execUnknownKind (s : State) : Out :=
  .next (s.takeHead (fun r => (kindOf r.kind).isNone) fun r s => s.reply r .unknownKind .nothing)

/-- IDENTIFY (R167). -/
def execIdentify (s : State) : Out :=
  .next (s.takeKind .identify anyRequest fun r s => s.reply r .ok .identify)

/-- FREE descriptors (R47). -/
def State.freeDescs (s : State) : Nat := s.descs.toList.countP fun d => d.state = .free

/-- The STATUS snapshot (Table 9-7); the claim list length is a count of 0 to 65535 (log entry 18). -/
def State.statusView (s : State) : StatusView :=
  { freeDescs := s.freeDescs
    freePages := s.freeList.length
    claims := min s.claims.length Config.countLimit
    reports := s.reportEntries
    level := s.ovr.level
    latch := s.ovr.latch
    stateA := s.domA.state
    counterA := s.domA.counter
    stateB := s.domB.state
    counterB := s.domB.counter
    mode := s.mode
    moving := s.inFlight.isSome }

/-- STATUS (R168). -/
def execStatus (s : State) : Out :=
  .next (s.takeKind .status anyRequest fun r s => s.reply r .ok (.status s.statusView))

/-- The request is a RESET with scope FULL. -/
def isResetFull (r : Request) : Bool := r.payload == [0]

/-- RESET_FULL (R170): a full reset with cause REQUEST, OVR at the level the unit sees (R124), and no reply. An exchange
in progress is abandoned: CSn stays low (R151). -/
def execResetFull (s : State) : Out :=
  .next (s.takeKind .reset isResetFull fun _ s => s.fullReset .request s.ovr.level s.port.csnLow)

/-- RESET_STREAMS (R169, R171): a streams reset, then the OK reply; another scope is BAD_FIELD. -/
def execResetStreams (s : State) : Out :=
  .next (s.takeKind .reset (fun r => !isResetFull r) fun r s =>
    if byteAt r.payload 0 = 1 then s.streamsReset.reply r .ok .nothing else s.refuse .reset r .badField)

end Sys2Proof.Machine
end

