-- ==== Sys2Proof/Machine/Reports.lean ====
section
/-! DEFINITION. The Report Path's command: CONVERSION (chapter 8). -/

namespace Sys2Proof.Machine

/-- The DONE report of a RETIRED descriptor (R140, R46). A RETIRED descriptor has an outcome. -/
def Descriptor.doneReport (d : Descriptor) (h : Handle) : DoneReport :=
  { stream := d.stream, generation := d.generation, direction := d.direction, handle := h, tag := d.tag,
    outcome := d.outcome.getD .discarded, span := d.span, endFrame := d.endFrame, counts := d.counts }

/-- The report that a claim gives as its record stands (R140, R141, R142). A MARKER claim pending means that the record
holds a word. -/
def State.reportOf (s : State) (c : Claim) : Report :=
  match c with
  | .done h => .done ((s.desc h).doneReport h)
  | .data x => .data x
  | .streamEvent i => .streamEvent i (s.stream i).generation (s.stream i).record
  | .streamDetached i g r => .streamEvent i g r
  | .domainEvent d => .domainEvent d (s.domain d).record
  | .overrideEvent => .overrideEvent s.ovr.recLevel s.ovr.edges s.ovr.recLatch
  | .marker l => .marker l ((s.lane l).eventWord.getD 0)

/-- Hand on what the claim held: the descriptor back to the pool, or the record emptied as its block lays down
(R139 step 4, R142). -/
def State.handOn (s : State) (c : Claim) : State :=
  match c with
  | .done h => s.modDesc h fun _ => Descriptor.blank
  | .data _ => s
  | .streamEvent i => s.modStream i fun st => { st with record := StreamRecord.empty }
  | .streamDetached _ _ _ => s
  | .domainEvent d => s.modDomain d fun dm => { dm with record := { dm.record with transitions := 0 } }
  | .overrideEvent => { s with ovr := { s.ovr with edges := 0 } }
  | .marker l => s.modLane l fun ln => { ln with eventWord := none }

/-- The head claim `c` becomes a report entry; `rest` are the claims behind it (R139). -/
def State.convert (s : State) (c : Claim) (rest : List Claim) : State :=
  (({ s with claims := rest } : State).handOn c).appendEntry (.report (s.reportOf c))

/-- CONVERSION (R139): while the claim list is non-empty and fewer than 16 report entries stand. -/
def execConversion (s : State) : Out :=
  .next (match s.claims with
    | [] => s
    | c :: rest => if s.reportEntries < Config.reportEntries then s.convert c rest else s)

end Sys2Proof.Machine
end

