-- ==== Sys2Proof/Machine/Streams.lean ====
section
/-! DEFINITION. The Stream Table's commands: OPEN, START, STOP_DRAIN, STOP_ABORT, CLOSE and QUERY_STREAM
(chapter 1). -/

namespace Sys2Proof.Machine

/-! ## OPEN (R7 to R9) -/

/-- The fields of an opening. -/
structure Opening where
  direction : Direction
  cls : StreamClass
  overlay : Bool
  width : Nat
  depth : Nat
  map : List (LaneNo × SlotNo)
  deriving DecidableEq, Repr

/-- The field checks of R7; none when one fails. -/
def readOpening (p : List Byte) : Option Opening :=
  match directionOf (byteAt p 1), classOf (byteAt p 2), flagOf (byteAt p 3), mapOf (p.drop 7) with
  | some dir, some cls, some ov, some map =>
    let width := (byteAt p 4).toNat
    let depth := (byteAt p 5).toNat
    if width ∈ [2, 3, 4] ∧ 1 ≤ depth ∧ depth ≤ Config.depthLimit ∧ 1 ≤ map.length ∧ map.length ≤ Config.channels ∧
        map.Nodup ∧ (ov = true → cls = .override ∧ dir = .play) then
      some { direction := dir, cls := cls, overlay := ov, width := width, depth := depth, map := map }
    else none
  | _, _, _, _ => none

/-- The domain that the lanes of a slot map belong to: that of its first lane (R6, R8 step 1). -/
def State.mapDomain (s : State) (map : List (LaneNo × SlotNo)) : DomainId :=
  match map with
  | [] => .a
  | (l, _) :: _ => (s.lane l).domain

/-- The direction the stream needs is enabled on the lane (R8 step 3). -/
def Lane.enabledFor (ln : Lane) (dir : Direction) : Bool :=
  match dir with
  | .play => ln.txEnable
  | .capture => ln.rxEnable

/-- The role the stream would take at the position is free (R8 step 6). -/
def State.roleFree (s : State) (o : Opening) (e : LaneNo × SlotNo) : Bool :=
  match o.direction, o.overlay with
  | .capture, _ => (s.rxBase e.1 e.2).isNone
  | .play, true => (s.txOverlay e.1 e.2).isNone
  | .play, false => (s.txBase e.1 e.2).isNone

/-- The checks of R8, in their order. -/
def State.openingChecks (s : State) (o : Opening) : List (Bool × Status) :=
  let d := s.mapDomain o.map
  [ (o.map.all fun e => decide ((s.lane e.1).domain = d), .domainMismatch),
    (decide ((s.domain d).source ≠ .off), .domainOff),
    (o.map.all fun e => (s.lane e.1).enabledFor o.direction, .laneDisabled),
    (o.map.all fun e => decide (e.2.val < (s.domain d).slots), .badField),
    (decide (8 * o.width ≤ (s.domain d).width), .widthMismatch),
    (o.map.all fun e => s.roleFree o e, .slotTaken) ]

/-- The checks of OPEN: R1 steps 1 and 2, R7, R8. -/
def State.checkOpen (s : State) (p : List Byte) : Except Status (StreamNo × Opening) :=
  match s.checkStream p (fun st => st.state = .closed) (fun _ _ => []) with
  | .error st => .error st
  | .ok i =>
    match readOpening p with
    | none => .error .badField
    | some o =>
      match firstFailure (s.openingChecks o) with
      | some st => .error st
      | none => .ok (i, o)

/-- The context of a stream just opened (R9). -/
def Stream.opened (st : Stream) (o : Opening) (d : DomainId) : Stream :=
  { state := .idle, generation := st.generation + 1, direction := o.direction, cls := o.cls, overlay := o.overlay,
    width := o.width, depth := o.depth, map := o.map, domain := d, queue := [], ring := [], backlog := [],
    sounding := false, gapOpen := false, record := StreamRecord.empty }

/-- An opening takes effect (R9, R4). -/
def State.openStream (s : State) (i : StreamNo) (o : Opening) : State :=
  { s.modStream i (fun st => st.opened o (s.mapDomain o.map)) with
    owners := s.owners.take i o.direction o.overlay o.map }

/-- OPEN (R7, R8, R9). -/
def execOpen (s : State) : Out :=
  .next (s.takeKind .openStream anyRequest fun r s =>
    s.answer .openStream r (s.checkOpen r.payload) fun (i, o) =>
      (s.openStream i o).reply r .ok (.opening i ((s.stream i).generation + 1)))

/-! ## START (R10) -/

/-- The checks of START. -/
def State.checkStart (s : State) (p : List Byte) : Except Status StreamNo :=
  s.checkStream p (fun st => st.state = .idle) fun _ st => [generationCheck p st]

/-- START takes effect: RUNNING, both flags clear, the head tested for eligibility (R10, R32). -/
def State.startStream (s : State) (i : StreamNo) : State :=
  (s.modStream i fun st => { st with state := .running, sounding := false, gapOpen := false }).settle i

/-- START (R10). -/
def execStart (s : State) : Out :=
  .next (s.takeKind .startStream anyRequest fun r s =>
    s.answer .startStream r (s.checkStart r.payload) fun i => (s.startStream i).reply r .ok (.stream i))

/-! ## STOP (R11 to R14) -/

/-- The mode byte of a STOP payload is DRAIN or ABORT. -/
def stopModeListed (p : List Byte) : Bool :=
  decide ((byteAt p 2).toNat < 2)

/-- The checks of STOP: R1, then the mode (R11). -/
def State.checkStop (s : State) (p : List Byte) : Except Status StreamNo :=
  s.checkStream p Stream.isOpen fun _ st => [generationCheck p st, (stopModeListed p, .badField)]

/-- STOP with mode DRAIN by state (R11). -/
def State.drain (s : State) (i : StreamNo) : State :=
  match (s.stream i).state with
  | .running => (s.modStream i fun st => { st with state := .stopping }).drainIfEmpty i
  | .stopping => s
  | .idle => s
  | .closed => s

/-- The STOP names mode ABORT. -/
def isAbort (r : Request) : Bool := r.payload.length == 3 && byteAt r.payload 2 == 1

/-- The STOP names mode DRAIN. -/
def isDrain (r : Request) : Bool := r.payload.length == 3 && byteAt r.payload 2 == 0

/-- STOP_DRAIN (R11): every STOP but one that names ABORT (log entry 17). -/
def execStopDrain (s : State) : Out :=
  .next (s.takeKind .stopStream (fun r => !isAbort r) fun r s =>
    s.answer .stopStream r (s.checkStop r.payload) fun i => (s.drain i).reply r .ok (.stream i))

/-- Retire the queued descriptors `q`, oldest first, each with the outcome `o` gives it (R13, R15, R48, R49). -/
def State.retireAll (i : StreamNo) (o : Descriptor → DoneOutcome) : List Handle → State → State
  | [], s => s
  | h :: q, s => State.retireAll i o q (s.retire i h (o (s.desc h)))

/-- STOP with mode ABORT: the move in flight voided, the backlog dropped, the queue retired, the stream IDLE with its
gap-open flag clear (R13, R14, R48). -/
def State.abort (s : State) (i : StreamNo) : State :=
  let s1 := (s.voidStream i).modStream i fun st => { st with backlog := [] }
  (State.retireAll i Descriptor.abortOutcome (s.stream i).queue s1).modStream i fun st =>
    { st with state := .idle, gapOpen := false }

/-- STOP_ABORT (R13, R14): every STOP but one that names DRAIN (log entry 17). -/
def execStopAbort (s : State) : Out :=
  .next (s.takeKind .stopStream (fun r => !isDrain r) fun r s =>
    s.answer .stopStream r (s.checkStop r.payload) fun i => (s.abort i).reply r .ok (.stream i))

/-! ## CLOSE (R15, R16) -/

/-- The checks of CLOSE. -/
def State.checkClose (s : State) (p : List Byte) : Except Status StreamNo :=
  s.checkStream p (fun st => st.state = .idle) fun _ st => [generationCheck p st]

/-- The STREAM EVENT claim attached to stream `i` is detached in its place, with a copy of the record and the closed
opening's generation (R16, R137). -/
def State.detach (s : State) (i : StreamNo) : State :=
  { s with claims := s.claims.map fun c =>
      if c = .streamEvent i then .streamDetached i (s.stream i).generation (s.stream i).record else c }

/-- CLOSE takes effect: every queued descriptor DISCARDED, roles freed, ring entries withdrawn, the move in flight
voided, a pending claim detached, CLOSED with its generation kept (R15, R16). -/
def State.closeStream (s : State) (i : StreamNo) : State :=
  let s1 := (State.retireAll i (fun _ => .discarded) (s.stream i).queue (s.voidStream i)).detach i
  { s1.modStream i (fun st => { st with state := .closed, ring := [], record := StreamRecord.empty }) with
    owners := s1.owners.release i }

/-- CLOSE (R15, R16). -/
def execClose (s : State) : Out :=
  .next (s.takeKind .closeStream anyRequest fun r s =>
    s.answer .closeStream r (s.checkClose r.payload) fun i =>
      (s.closeStream i).reply r .ok (.opening i (s.stream i).generation))

/-! ## QUERY_STREAM (R17) -/

/-- The checks of QUERY STREAM. -/
def State.checkQueryStream (s : State) (p : List Byte) : Except Status StreamNo :=
  s.checkStream p Stream.isOpen fun _ st => [generationCheck p st]

/-- What QUERY STREAM shows of a queued descriptor (R17). -/
def State.descView (s : State) (h : Handle) : DescView :=
  { handle := h, tag := (s.desc h).tag, state := (s.desc h).state, span := (s.desc h).span,
    resolved := (s.desc h).resolved }

/-- The QUERY STREAM snapshot: the lead of a PLAY stream, the held frames and zero positions of a CAPTURE stream
(R17, R179). -/
def State.streamView (s : State) (i : StreamNo) : StreamView :=
  let st := s.stream i
  { stream := i, state := st.state, generation := st.generation, direction := st.direction, cls := st.cls,
    overlay := st.overlay, width := st.width, depth := st.depth, domain := st.domain, map := st.map,
    leadOrHeld := (match st.direction with
      | .play => st.lead
      | .capture => s.heldCount i)
    zeroPositions := (match st.direction with
      | .play => 0
      | .capture => st.zeroPositions)
    sounding := st.sounding, gapOpen := st.gapOpen, record := st.record, descs := st.queue.map s.descView }

/-- QUERY_STREAM (R17). -/
def execQueryStream (s : State) : Out :=
  .next (s.takeKind .queryStream anyRequest fun r s =>
    s.answer .queryStream r (s.checkQueryStream r.payload) fun i => s.reply r .ok (.queryStream (s.streamView i)))

end Sys2Proof.Machine
end

