-- ==== Sys2Proof/Machine/Dispatch.lean ====
section
/-! DEFINITION. One arm for each command: the meaning that spec/opcode_table.json's row has. -/

namespace Sys2Proof.Machine

def exec (i : Instr) (s : State) : Host.Outcome State Fault Refusal :=
  match i with
  | .pinReset ovr csnLow => Sys2Proof.Machine.execPinReset ovr csnLow s
  | .csnFalling => Sys2Proof.Machine.execCsnFalling s
  | .endOfExchange sdi => Sys2Proof.Machine.execEndOfExchange sdi s
  | .unknownKind => Sys2Proof.Machine.execUnknownKind s
  | .identify => Sys2Proof.Machine.execIdentify s
  | .status => Sys2Proof.Machine.execStatus s
  | .resetFull => Sys2Proof.Machine.execResetFull s
  | .resetStreams => Sys2Proof.Machine.execResetStreams s
  | .setDomain => Sys2Proof.Machine.execSetDomain s
  | .queryTime => Sys2Proof.Machine.execQueryTime s
  | .setLane => Sys2Proof.Machine.execSetLane s
  | .setMarker => Sys2Proof.Machine.execSetMarker s
  | .openStream => Sys2Proof.Machine.execOpen s
  | .startStream => Sys2Proof.Machine.execStart s
  | .stopDrain => Sys2Proof.Machine.execStopDrain s
  | .stopAbort => Sys2Proof.Machine.execStopAbort s
  | .closeStream => Sys2Proof.Machine.execClose s
  | .queryStream => Sys2Proof.Machine.execQueryStream s
  | .submit => Sys2Proof.Machine.execSubmit s
  | .put => Sys2Proof.Machine.execPut s
  | .clearOverride => Sys2Proof.Machine.execClearOverride s
  | .setArbitration => Sys2Proof.Machine.execSetArbitration s
  | .grant => Sys2Proof.Machine.execGrant s
  | .completion => Sys2Proof.Machine.execCompletion s
  | .frameClosed d bits duration rx => Sys2Proof.Machine.execFrameClosed d bits duration rx s
  | .lockTimeout d elapsed => Sys2Proof.Machine.execLockTimeout d elapsed s
  | .goodRunTimeout d elapsed => Sys2Proof.Machine.execGoodRunTimeout d elapsed s
  | .generatorBoundary d rx => Sys2Proof.Machine.execGeneratorBoundary d rx s
  | .assertionEdge => Sys2Proof.Machine.execAssertionEdge s
  | .deassertionEdge => Sys2Proof.Machine.execDeassertionEdge s
  | .conversion => Sys2Proof.Machine.execConversion s

end Sys2Proof.Machine
end

