-- ==== Sys2Proof/Safety.lean ====
section
/-! DEFINITION. What the part keeps true at every step, in the terms that claims use: the memory's form, the port, the
rotation list, the domains, lanes and Override Unit, the claim list, the ownership entries, and the pools of descriptors
and pages. Each is stated of one state; the claims that a step keeps them stand in Certificates/. -/

namespace Sys2Proof.Machine

/-! ## Memory, arbiter -/

/-- The buffer memory has its canonical form. -/
def State.MemoryOk (s : State) : Prop := s.mem.wf = true

/-- The rotation list holds the twelve streams, each once, ascending in FIXED mode (section 4.7, R83). -/
def State.RotationOk (s : State) : Prop :=
  s.rotation.Perm (List.finRange 12) ∧ (s.mode = .fixed → s.rotation = List.finRange 12)

/-! ## Exchange Port -/

/-- Sequence numbers that follow one another up to `last`, none of them 0 (Conventions, R157, R162). -/
def seqRun : List (BitVec 8) → BitVec 8 → Bool
  | [], _ => true
  | [q], last => decide (q ≠ 0 ∧ q = last)
  | q :: r :: rest, last => decide (q ≠ 0 ∧ r = nextSeq q) && seqRun (r :: rest) last

/-- The entries that satisfy `f` form a run from the oldest onward. -/
def runFromOldest (f : Entry → Bool) (es : List Entry) : Prop := (es.dropWhile f).all (fun e => !f e) = true

/-- The Exchange Port's own promises: capacities (R138, R159), sequence numbers in order (R157, R162), sending in queue
order (Table 9-1, section 9.1), the due entry SENT and standing (R164), the frame in progress carrying the entry at the
send cursor (R152), at most one LAST flag (R158). -/
structure State.PortOk (s : State) : Prop where
  requests : s.port.inbound.length + s.replyEntries ≤ 8
  reports : s.reportEntries ≤ 16
  inboundRun : seqRun (s.port.inbound.map fun r => r.seq) s.port.lastIn = true
  outboundRun : seqRun (s.port.outbound.map fun e => e.seq) s.port.lastOut = true
  noNop : ∀ r ∈ s.port.inbound, r.kind ≠ nopKind ∧ r.payload.length ≤ 1040
  sentRun : runFromOldest (fun e => e.sent) s.port.outbound
  carriedRun : runFromOldest (fun e => e.carried) s.port.outbound
  sentCarried : ∀ e ∈ s.port.outbound, e.sent = true → e.carried = true
  due : ∀ q ∈ s.port.due, ∃ e ∈ s.port.outbound, e.seq = q ∧ e.sent = true
  frame : ∀ f ∈ s.port.frame, s.port.csnLow = true ∧ ∀ q ∈ f.carries, ∃ e ∈ s.cursor, e.seq = q
  flags : (s.port.lastBad && s.port.lastSeq || s.port.lastBad && s.port.lastFull || s.port.lastSeq && s.port.lastFull) = false

/-! ## Clock Domains, Lanes, Override Unit -/

/-- The source and state pairs of Table 5-2. -/
def Domain.legal (dm : Domain) : Bool :=
  match dm.source, dm.state with
  | .off, .off => true
  | .internal, .locked => true
  | .external, .acquiring => true
  | .external, .locked => true
  | .external, .lost => true
  | _, _ => false

/-- A domain record keeps to Table 5-1 and Table 5-2: legal source and state, fields in range, a good run below 16 and
only while ACQUIRING or LOST (R92, R96), measurement only of an EXTERNAL domain (R91), a locked EXTERNAL domain timed
(R94), delivery only while LOCKED (R98), a record whose latest state is LOCKED exactly while the domain is (R102). -/
structure Domain.Ok (dm : Domain) : Prop where
  legal : dm.legal = true
  divider : 1 ≤ dm.divider ∧ dm.divider ≤ 64
  slots : dm.slots ∈ [2, 4, 8]
  width : dm.width ∈ [16, 24, 32]
  goodRun : dm.goodRun < 16 ∧ (dm.goodRun ≠ 0 → dm.state = .acquiring ∨ dm.state = .lost)
  measured : dm.source ≠ .external → dm.lastGood = none ∧ dm.measuring = false
  timed : dm.source = .external → dm.state = .locked → dm.lastGood.isSome = true ∧ dm.measuring = true
  delivers : dm.delivers = true → dm.state = .locked
  transitions : dm.record.transitions ≤ 65535
  latest : dm.record.latest = .locked ↔ dm.state = .locked

/-- Both domains keep to chapter 5. -/
def State.DomainsOk (s : State) : Prop := s.domA.Ok ∧ s.domB.Ok

/-- A lane keeps to chapter 6: markers only on a 32-bit domain (R108, R116), a frame in either direction only while
enabled on a LOCKED domain (R106, R107), a composed frame of the domain's slot count (R110), an assembly of 1 to 31 bits
(Table 6-1). -/
structure Lane.Ok (ln : Lane) (dm : Domain) : Prop where
  marker : (ln.txMarker || ln.rxMarker) = true → dm.width = 32
  sending : ∀ f ∈ ln.txFrame, ln.txEnable = true ∧ dm.state = .locked ∧ f.length = dm.slots
  gathering : ln.gathering = true → ln.rxEnable = true ∧ dm.state = .locked
  assembly : ∀ a ∈ ln.assembly, 1 ≤ a.count ∧ a.count ≤ 31 ∧ ln.rxEnable = true ∧ ln.rxMarker = true

/-- Every lane keeps to chapter 6. -/
def State.LanesOk (s : State) : Prop := ∀ l : LaneNo, (s.lane l).Ok (s.domain (s.lane l).domain)

/-- The Override Unit's record shows the unit's own level and latch, and an asserted line has set the latch (R125, R127,
R129, R132). -/
structure State.OverrideOk (s : State) : Prop where
  level : s.ovr.recLevel = s.ovr.level
  latch : s.ovr.recLatch = s.ovr.latch
  asserted : s.ovr.level = .asserted → s.ovr.latch = true
  edges : s.ovr.edges ≤ 65535

/-! ## The claim list -/

/-- STREAM EVENT attached, DOMAIN EVENT, OVERRIDE EVENT and MARKER claims: those that stand for a record (R136). -/
def Claim.coalesces : Claim → Bool
  | .done _ => false
  | .data _ => false
  | .streamEvent _ => true
  | .streamDetached _ _ _ => false
  | .domainEvent _ => true
  | .overrideEvent => true
  | .marker _ => true

/-- A coalescing claim stands once, and exactly while its record holds something to report (R134, R142); a CLOSED stream
has none attached and an emptied record (R16, R137). -/
structure State.ClaimsOk (s : State) : Prop where
  once : (s.claims.filter Claim.coalesces).Nodup
  override : Claim.overrideEvent ∈ s.claims ↔ 1 ≤ s.ovr.edges
  domain : ∀ d, Claim.domainEvent d ∈ s.claims ↔ 1 ≤ (s.domain d).record.transitions
  marker : ∀ l, Claim.marker l ∈ s.claims ↔ (s.lane l).eventWord.isSome = true
  stream : ∀ i, Claim.streamEvent i ∈ s.claims ↔
    (s.stream i).record.gapStart.isSome = true ∨ (s.stream i).record.gapEnd.isSome = true ∨ (s.stream i).record.drained = true
  closed : ∀ i, (s.stream i).state = .closed → Claim.streamEvent i ∉ s.claims ∧ (s.stream i).record = StreamRecord.empty
  gapFrames : ∀ i, (s.stream i).record.gapFrames ≤ 65535

/-! ## Streams and ownership -/

/-- Stream `i` is open and plays its slot map's positions in the base or overlay role, or captures them (R4). -/
def Stream.holds (st : Stream) (dir : Direction) (overlay : Bool) (e : LaneNo × SlotNo) : Prop :=
  st.isOpen = true ∧ st.direction = dir ∧ st.overlay = overlay ∧ e ∈ st.map

/-- What OPEN has checked of an open stream still holds (R5, R7, R8). -/
structure Stream.Fits (st : Stream) (s : State) : Prop where
  overlay : st.overlay = true → st.cls = .override ∧ st.direction = .play
  map : 1 ≤ st.map.length ∧ st.map.length ≤ 16 ∧ st.map.Nodup
  width : st.width ∈ [2, 3, 4] ∧ 8 * st.width ≤ (s.domain st.domain).width
  depth : 1 ≤ st.depth ∧ st.depth ≤ 8
  source : (s.domain st.domain).source ≠ .off
  lanes : ∀ e ∈ st.map, (s.lane e.1).domain = st.domain ∧ (s.lane e.1).enabledFor st.direction = true ∧
    e.2.val < (s.domain st.domain).slots

/-- The ownership entries record exactly the positions of the open streams (R4), and every open stream still fits its
lanes and its domain (R5). -/
structure State.OwnersOk (s : State) : Prop where
  txBase : ∀ l k i, s.txBase l k = some i ↔ (s.stream i).holds .play false (l, k)
  txOverlay : ∀ l k i, s.txOverlay l k = some i ↔ (s.stream i).holds .play true (l, k)
  rxBase : ∀ l k i, s.rxBase l k = some i ↔ (s.stream i).holds .capture false (l, k)
  fits : ∀ i, (s.stream i).isOpen = true → (s.stream i).Fits s

/-- No stream holds more than four held frames (R78). -/
def State.HeldOk (s : State) : Prop := ∀ i, s.heldCount i ≤ 4

/-! ## Descriptors, queues and pages -/

/-- LOADING, READY, WAITING or ACTIVE (R26). -/
def DescState.live : DescState → Bool
  | .free => false
  | .loading => true
  | .ready => true
  | .waiting => true
  | .active => true
  | .retired => false

/-- Every descriptor stands in exactly one place: the pool, its stream's queue, or the retired set with its one DONE claim
(R26, R134). -/
structure State.PlacesOk (s : State) : Prop where
  queued : ∀ h i, h ∈ (s.stream i).queue ↔ (s.desc h).state.live = true ∧ (s.desc h).stream = i
  once : ∀ i, (s.stream i).queue.Nodup
  retired : ∀ h, Claim.done h ∈ s.claims ↔ (s.desc h).state = .retired
  doneOnce : ∀ h, s.claims.count (Claim.done h) ≤ 1

/-- The sum of the outcome counts of resolved positions. -/
def Counts.resolved (c : Counts) : Nat := c.sounded + c.muted + c.skipped + c.late + c.stored + c.lost

/-- What a RETIRED record carries, by outcome (Table 2-3). -/
def Descriptor.Account (d : Descriptor) : Prop :=
  match d.outcome with
  | none => False
  | some .complete => d.counts.unreached = 0 ∧ d.counts.late < d.frames ∧ d.span.isSome = true ∧
      d.endFrame = d.span.map fun S => frameOf S (d.frames - 1)
  | some .late => d.counts.late = d.frames ∧ d.span.isSome = true ∧ d.endFrame = d.span.map fun S => frameOf S (d.frames - 1)
  | some .cut => d.span.isSome = true ∧
      d.endFrame = if d.resolved = 0 then none else d.span.map fun S => frameOf S (d.resolved - 1)
  | some .discarded => d.counts.unreached = d.frames ∧ d.span = none ∧ d.endFrame = none

/-- A descriptor record keeps to Table 2-1: its size, its pages (R55), its counts adding up (R46), and in each state the
progress that the state stands for (R27, R58, R60, R61). -/
structure Descriptor.Ok (d : Descriptor) : Prop where
  blank : d.state = .free → d = Descriptor.blank
  size : d.state ≠ .free → 1 ≤ d.frames ∧ d.frames ≤ 8192 ∧ d.bytes = d.frames * d.frameSize ∧ 1 ≤ d.bytes ∧
    d.bytes ≤ 32768 ∧ d.pages.length = pagesFor d.bytes
  side : (d.direction = .play → d.counts.stored = 0 ∧ d.counts.lost = 0) ∧
    (d.direction = .capture → d.counts.sounded = 0 ∧ d.counts.muted = 0 ∧ d.counts.skipped = 0)
  live : d.state.live = true → d.counts.unreached = 0 ∧ d.counts.resolved = d.resolved ∧ d.resolved ≤ d.frames ∧
    d.outcome = none ∧ d.endFrame = none
  retired : d.state = .retired → d.counts.resolved + d.counts.unreached = d.frames ∧
    d.counts.unreached = d.frames - d.resolved ∧ d.gone = d.pages.length ∧ d.Account
  fresh : d.state = .loading ∨ d.state = .ready → d.resolved = 0 ∧ d.span = none ∧ d.assigned = 0 ∧ d.written = 0 ∧ d.gone = 0
  loading : d.state = .loading → d.direction = .play ∧ d.loaded < d.bytes
  loaded : d.state.live = true → d.state ≠ .loading → d.direction = .play → d.loaded = d.bytes
  eligible : d.eligible = true → d.span.isSome = true
  play : d.state.live = true → d.direction = .play → d.gone = d.doneEntries d.resolved
  capture : d.state.live = true → d.direction = .capture → d.resolved ≤ d.assigned ∧ d.assigned ≤ d.frames ∧
    d.gone = d.written / 512 ∧
    (d.written = d.resolved * d.frameSize ∨ d.written = 0 ∧ d.counts.late = d.frames ∧ d.resolved = d.frames)

/-- Every descriptor record keeps to chapter 2. -/
def State.DescsOk (s : State) : Prop := ∀ h, (s.desc h).Ok

/-- How far on a queued descriptor is: eligible, READY, LOADING. -/
def Descriptor.stage (d : Descriptor) : Nat :=
  match d.state with
  | .ready => 1
  | .loading => 2
  | _ => 0

/-- `h` stands just ahead of `h'` in the queue of a stream: eligible before READY before LOADING, and a descriptor behind
another is eligible only in a capture queue behind a fully assigned one, and then always while the stream moves (R30,
R32). -/
def State.aheadOk (s : State) (st : Stream) (h h' : Handle) : Bool :=
  decide ((s.desc h).stage ≤ (s.desc h').stage) && decide ((s.desc h).stage ≠ 2) &&
  (!(s.desc h').eligible || decide (st.direction = .capture) && (s.desc h).fullyAssigned) &&
  (!(st.moving && decide (st.direction = .capture) && (s.desc h).fullyAssigned) || (s.desc h').eligible)

/-- A relation holds of every two neighbours of a list. -/
def neighbours {α : Type} (r : α → α → Bool) : List α → Bool
  | [] => true
  | [_] => true
  | a :: b :: rest => r a b && neighbours r (b :: rest)

/-- The queue of one stream keeps to chapter 2: the depth limit and at most one LOADING descriptor, the newest (R30); what
SUBMIT recorded still the stream's own (R29, R2); nothing eligible unless the stream moves (R3), and nothing left to
make eligible or retire while it does (R32, R44); a STOPPING stream never empty (R12), a CLOSED one always (R3). -/
structure State.QueueOk (s : State) (i : StreamNo) : Prop where
  depth : (s.stream i).queue.length ≤ (s.stream i).depth
  own : ∀ h ∈ (s.stream i).queue, (s.desc h).generation = (s.stream i).generation ∧
    (s.desc h).direction = (s.stream i).direction ∧ (s.desc h).frameSize = (s.stream i).frameSize
  order : neighbours (s.aheadOk (s.stream i)) (s.stream i).queue = true
  resting : (s.stream i).moving = false → ∀ h ∈ (s.stream i).queue, (s.desc h).eligible = false
  moving : (s.stream i).moving = true → ∀ h ∈ (s.stream i).queue.head?, (s.desc h).state ≠ .ready ∧ (s.desc h).spent = false
  stopping : (s.stream i).state = .stopping → (s.stream i).queue ≠ []
  closed : (s.stream i).state = .closed → (s.stream i).queue = []

/-- Every queue keeps to chapter 2. -/
def State.QueuesOk (s : State) : Prop := ∀ i, s.QueueOk i

/-- A move in flight that is not void belongs to the opening that its stream now has; a play move carries the head's first
unresolved position (R68, R76, R80). -/
structure State.MoveOk (s : State) : Prop where
  own : ∀ m ∈ s.inFlight, m.void = false → (s.stream m.stream).moving = true ∧ m.generation = (s.stream m.stream).generation ∧
    m.direction = (s.stream m.stream).direction
  kind : ∀ m ∈ s.inFlight, m.kind.isSome = true ↔ m.direction = .capture
  play : ∀ m ∈ s.inFlight, m.void = false → m.direction = .play → s.headFrame m.stream = some (m.handle, m.frame) ∧
    m.position = (s.desc m.handle).resolved

/-- The capture positions of a descriptor that are assigned and not resolved, in position order: handle, position and
frame. -/
def State.waitingPositions (s : State) (h : Handle) : List (Handle × Nat × FrameNo) :=
  if (s.desc h).eligible then
    (List.range ((s.desc h).assigned - (s.desc h).resolved)).map fun j =>
      (h, (s.desc h).resolved + j, frameOf ((s.desc h).span.getD 0) ((s.desc h).resolved + j))
  else []

/-- The position that a capture move of stream `i` in flight, not void, carries. -/
def State.carriedPosition (s : State) (i : StreamNo) : List (Handle × Nat × FrameNo) :=
  match s.inFlight with
  | none => []
  | some m =>
    if m.stream = i ∧ m.void = false ∧ m.direction = .capture then [(m.handle, m.position, m.frame)] else []

/-- The backlog, behind the move in flight, holds the unresolved assigned positions of the queue's descriptors, in
position order within a descriptor and in queue order across them (R42, R77, R78); a play stream has none. -/
structure State.BacklogOk (s : State) : Prop where
  order : ∀ i, (s.stream i).direction = .capture →
    s.carriedPosition i ++ (s.stream i).backlog.map (fun e => (e.handle, e.position, e.frame)) =
      (s.stream i).queue.flatMap s.waitingPositions
  play : ∀ i, (s.stream i).direction = .play → (s.stream i).backlog = []
  samples : ∀ i, ∀ e ∈ (s.stream i).backlog, ∀ xs, e.kind = .held xs → xs.length = (s.stream i).channels

/-- All pages, by holding: the free list, the descriptors, the DATA claims, the DATA entries (R53). -/
def State.holdings (s : State) : List PageNo :=
  s.freeList ++ (List.finRange 48).flatMap (fun h => (s.desc h).heldPages) ++ s.claims.filterMap Claim.page ++
    s.port.outbound.filterMap Entry.page

/-- Each page is in exactly one of the four holdings (R53, R54). -/
def State.PagesOk (s : State) : Prop := s.holdings.Perm (List.finRange 256)

/-- The ring of play stream `i` ends before the frame of its head's first unresolved position, while that frame lies in
the window (R70, R71). -/
def State.ringBehindHead (s : State) (i : StreamNo) : Bool :=
  match s.headFrame i with
  | none => true
  | some (_, f) =>
    let n := (s.domain (s.stream i).domain).counter
    !inWindow n f || decide ((s.stream i).lead ≤ (f - n).toNat)

/-- A play stream is at most four frames ahead, and never past the first unresolved position of its head; a play move not
void carries a frame in the window (R70, R71, R72). A capture stream and a CLOSED stream hold no ring entry. -/
structure State.LeadOk (s : State) : Prop where
  four : ∀ i, (s.stream i).lead ≤ 4
  behindHead : ∀ i, (s.stream i).direction = .play → s.ringBehindHead i = true
  carried : ∀ m ∈ s.inFlight, m.void = false → m.direction = .play →
    inWindow (s.domain (s.stream m.stream).domain).counter m.frame = true
  none : ∀ i, (s.stream i).direction = .capture ∨ (s.stream i).state = .closed → (s.stream i).ring = []

/-- No DATA claim of a descriptor stands behind its DONE claim (R43, R145). -/
def dataBeforeDone : List Claim → Bool
  | [] => true
  | .done h :: rest => rest.all (fun c => match c with
      | .data x => decide (x.handle ≠ h)
      | _ => true) && dataBeforeDone rest
  | _ :: rest => dataBeforeDone rest

/-- The claim list keeps every descriptor's data ahead of its account, and a DATA claim covers 1 to 512 bytes (R141,
R145). -/
structure State.DataOk (s : State) : Prop where
  order : dataBeforeDone s.claims = true
  count : ∀ x, Claim.data x ∈ s.claims → 1 ≤ x.count ∧ x.count ≤ 512

/-- What the Stream Table, the pools and the Transfer Engine keep together. -/
structure State.PoolsOk (s : State) : Prop where
  owners : s.OwnersOk
  held : s.HeldOk
  places : s.PlacesOk
  descs : s.DescsOk
  queues : s.QueuesOk
  move : s.MoveOk
  backlog : s.BacklogOk
  pages : s.PagesOk
  lead : s.LeadOk
  data : s.DataOk

/-! ## What claims about one command say -/

/-- The port once request `r` has been taken and its reply appended (R161, R162): `rest` waits behind it. -/
def Port.answered (p : Port) (rest : List Request) (r : Request) (st : Status) (b : ReplyBody) : Port :=
  { p with
    inbound := rest
    lastOut := nextSeq p.lastOut
    outbound := p.outbound ++ [{
      seq := nextSeq p.lastOut, sent := false, carried := false
      body := .reply { seq := r.seq, kind := r.kind, status := st, body := b } }] }

/-- The state in which request `r` has been taken and answered, and nothing else has changed. -/
def State.answered (s : State) (rest : List Request) (r : Request) (st : Status) (b : ReplyBody) : State :=
  { s with port := s.port.answered rest r st b }

/-- The outbound entries after R155 step 1: the entry that the frame `f` carries is SENT and carried when every byte of the
frame has been clocked (R153). -/
def State.marked (s : State) (f : OutFrame) (sdi : List Byte) : List Entry :=
  s.port.outbound.map fun e =>
    if f.carries = some e.seq ∧ f.bytes.length ≤ sdi.length then { e with sent := true, carried := true } else e

/-- A full reset with its cause, the level of OVR and of CSn at its end, has led from `s` to `t`: the values of Table 1-3,
Table 4-2, Table 5-3, Table 6-3 and Table 9-8, R51, R65, R132 and R147; page bytes as they stood (R57). The fields that
only an opening sets are log entry 5's. -/
structure State.FullyReset (s t : State) (cause : ResetCause) (lv : LineLevel) (csnLow : Bool) : Prop where
  streams : ∀ i, (t.stream i).state = .closed ∧ (t.stream i).generation = 0 ∧ (t.stream i).queue = [] ∧
    (t.stream i).ring = [] ∧ (t.stream i).backlog = [] ∧ (t.stream i).sounding = false ∧ (t.stream i).gapOpen = false ∧
    (t.stream i).record = { gapStart := none, gapEnd := none, gapFrames := 0, drained := false }
  owners : ∀ l k, t.txBase l k = none ∧ t.txOverlay l k = none ∧ t.rxBase l k = none
  descs : ∀ h, (t.desc h).state = .free
  freeList : t.freeList = List.finRange 256
  mem : t.mem = s.mem
  engine : t.inFlight = none ∧ t.mode = .fixed ∧ t.rotation = List.finRange 12
  domains : ∀ d, t.domain d = {
    source := .off, divider := 1, slots := 2, width := 32, state := .off, counter := 0, goodRun := 0, lastGood := none,
    measuring := false, delivers := false, record := { latest := .off, transitions := 0, counter := 0 } }
  lanes : ∀ l, t.lane l = {
    domain := .a, txEnable := false, rxEnable := false, txMarker := false, rxMarker := false, staged := none, current := 0,
    assembly := none, lastReported := none, eventWord := none, txFrame := none, gathering := false }
  released : lv = .deasserted → t.claims = [] ∧
    t.ovr = { level := .deasserted, latch := false, recLevel := .deasserted, edges := 0, recLatch := false }
  asserted : lv = .asserted → t.claims = [.overrideEvent] ∧
    t.ovr = { level := .asserted, latch := true, recLevel := .asserted, edges := 1, recLatch := true }
  port : t.port = {
    inbound := [], lastIn := 0, lastOut := 1,
    outbound := [{ seq := 1, body := .report (.resetNotice cause), sent := false, carried := false }],
    due := none, lastBad := false, lastSeq := false, lastFull := false, csnLow := csnLow, frame := none }
  model : t.pending = s.pending ∧ t.freeCount = s.freeCount

/-- A row of the taking commands: the command that takes a request of this kind code, and the payload lengths that fit
it (Table 10-4, R176). -/
structure Taking where
  command : Instr
  kind : Byte
  fits : List Byte → Bool

/-- The commands that take a request of a known kind, RESET with scope FULL aside, which has no reply (R161). -/
def takings : List Taking :=
  [ ⟨.identify, 0x01, fun p => p.length == 0⟩,
    ⟨.status, 0x02, fun p => p.length == 0⟩,
    ⟨.resetStreams, 0x03, fun p => p.length == 1⟩,
    ⟨.setDomain, 0x10, fun p => p.length == 5⟩,
    ⟨.queryTime, 0x11, fun p => p.length == 1⟩,
    ⟨.setLane, 0x12, fun p => p.length == 6⟩,
    ⟨.setMarker, 0x13, fun p => p.length == 5⟩,
    ⟨.openStream, 0x20, fun p => decide (7 ≤ p.length) && p.length == 7 + 2 * (p.getD 6 0).toNat⟩,
    ⟨.closeStream, 0x21, fun p => p.length == 2⟩,
    ⟨.startStream, 0x22, fun p => p.length == 2⟩,
    ⟨.stopDrain, 0x23, fun p => p.length == 3⟩,
    ⟨.stopAbort, 0x23, fun p => p.length == 3⟩,
    ⟨.queryStream, 0x24, fun p => p.length == 2⟩,
    ⟨.submit, 0x30, fun p => p.length == 11⟩,
    ⟨.put, 0x31, fun p => decide (4 ≤ p.length) && decide (p.length ≤ 1027)⟩,
    ⟨.clearOverride, 0x40, fun p => p.length == 0⟩,
    ⟨.setArbitration, 0x41, fun p => p.length == 1⟩ ]

/-- A request that names one stream and its generation, but for OPEN: the command that takes it, its kind code, the
payloads of it that this command takes, and the streams that it accepts (R1 step 2). -/
structure StreamTaking where
  command : Instr
  kind : Byte
  takes : List Byte → Bool
  accepts : Stream → Bool

/-- START, STOP, CLOSE, QUERY STREAM, SUBMIT and PUT with the states that R10, R11, R15, R17, R28 and R31 accept. -/
def streamTakings : List StreamTaking :=
  [ ⟨.startStream, 0x22, fun p => p.length == 2, fun st => st.state = .idle⟩,
    ⟨.closeStream, 0x21, fun p => p.length == 2, fun st => st.state = .idle⟩,
    ⟨.queryStream, 0x24, fun p => p.length == 2, fun st => st.state ≠ .closed⟩,
    ⟨.stopDrain, 0x23, fun p => p.length == 3 && p.getD 2 0 != 1, fun st => st.state ≠ .closed⟩,
    ⟨.stopAbort, 0x23, fun p => p.length == 3 && p.getD 2 0 != 0, fun st => st.state ≠ .closed⟩,
    ⟨.submit, 0x30, fun p => p.length == 11, fun st => st.state = .idle || st.state = .running⟩,
    ⟨.put, 0x31, fun p => decide (4 ≤ p.length) && decide (p.length ≤ 1027),
      fun st => decide (st.direction = .play) && decide (st.state ≠ .closed)⟩ ]

/-- The checks `cs` are made in their order, and the first that does not hold gives the status that `out` is told. -/
def refusedInOrder (cs : List (Prop × Status)) (out : Status → Prop) : Prop :=
  ∀ pre ok st post, cs = pre ++ (ok, st) :: post → (∀ c ∈ pre, c.1) → ¬ ok → out st

/-- Command `c` is a frame event of domain `d` while it is LOCKED, with `rx` on the receive lines of the frame it ends: a
boundary of an INTERNAL domain, or the edge that closes a good frame of an EXTERNAL one (R91, R96). -/
def State.takesFrameEvent (s : State) (c : Instr) (d : DomainId) (rx : RxFrame) : Prop :=
  c = .generatorBoundary d rx ∧ (s.domain d).source = .internal ∨
  ∃ bits duration, c = .frameClosed d bits duration rx ∧ (s.domain d).source = .external ∧ (s.domain d).state = .locked ∧
    (s.domain d).measuring = true ∧ bits = (s.domain d).slots * (s.domain d).width

/-- Command `c` closes the sixteenth good frame in a row of domain `d`, ACQUIRING or LOST until then, with `rx` on the receive
lines of that frame: the edge that makes it LOCKED is its first frame event (R92, R95, R96). -/
def State.locksAtEvent (s : State) (c : Instr) (d : DomainId) (rx : RxFrame) : Prop :=
  ∃ duration, c = .frameClosed d ((s.domain d).slots * (s.domain d).width) duration rx ∧
    (s.domain d).source = .external ∧ (s.domain d).measuring = true ∧ (s.domain d).goodRun = 15 ∧
    ((s.domain d).state = .acquiring ∨ (s.domain d).state = .lost)

/-- Command `c` is a frame event of domain `d`: one of a LOCKED domain, or the one that locks it. -/
def State.makesFrameEvent (s : State) (c : Instr) (d : DomainId) (rx : RxFrame) : Prop :=
  s.takesFrameEvent c d rx ∨ s.locksAtEvent c d rx

/-- The loss of lock of domain `d` (R93, R94, R102, R120): LOST with its counter standing, the transition recorded, a DOMAIN
EVENT claim pending, its lanes silent and their received-marker assemblies absent. `measuring`: the edge at the loss
opens the first frame measured for relock. -/
def State.afterLoss (s : State) (d : DomainId) (measuring : Bool) : State :=
  { s.modDomain d fun dm => { dm with
      state := .lost, goodRun := 0, measuring := measuring, delivers := false
      record := { latest := .lost, transitions := bump dm.record.transitions, counter := dm.counter } } with
    lanes := Vector.ofFn fun l =>
      if (s.lane l).domain = d then { s.lane l with assembly := none, txFrame := none, gathering := false } else s.lane l
    claims := if Claim.domainEvent d ∈ s.claims then s.claims else s.claims ++ [.domainEvent d] }

/-- What the ring entry `e` of stream `i` gives to the position (lane `l`, slot `k`) in slots of `W` bits (R112, R114). -/
def State.entryValue (s : State) (W : Nat) (i : StreamNo) (l : LaneNo) (k : SlotNo) (e : RingEntry) : Word32 :=
  match e with
  | .sample xs => packSlot W (s.stream i).width (xs.getD ((s.stream i).map.idxOf (l, k)) 0)
  | .muted => 0
  | .fill => 0

/-- `x` is what R114 puts in slot `k` of lane `l`: the overlay owner's entry at frame N if it holds one, else the base
owner's, else silence. -/
structure State.SlotFrom (s : State) (W : Nat) (l : LaneNo) (k : SlotNo) (x : Word32) : Prop where
  overlay : ∀ i e, s.txOverlay l k = some i → (s.stream i).ring.head? = some e → x = s.entryValue W i l k e
  base : (∀ i, s.txOverlay l k = some i → (s.stream i).ring = []) →
    ∀ i e, s.txBase l k = some i → (s.stream i).ring.head? = some e → x = s.entryValue W i l k e
  silence : (∀ i, s.txOverlay l k = some i → (s.stream i).ring = []) →
    (∀ i, s.txBase l k = some i → (s.stream i).ring = []) → x = 0

end Sys2Proof.Machine
end

