-- ==== Sys2Proof/Certificates/Slice0/Obligations.lean ====
section
/-! DEFINITION. The statements for the provers, in the order of OBLIGATIONS.json. Each docstring names the rules of spec/ that
the statement formalises. -/

open Sys2Proof Sys2Proof.Machine

/-! ## The queue of commands -/

/-- A step runs the command at the front of the queue on the queue's rest; on an empty queue the block idles, which is the
model's choice (log entry 3). -/
def Obligations.StepRunsFrontCommand : Prop :=
  (∀ c rest (s : State), s.pending = c :: rest → step s = exec c { s with pending := rest }) ∧
    ∀ (s : State), s.pending = [] → step s = .next s

/-- Every step of the part is whole: each command answers a next state in every state, and leaves the commands that wait
(95_what_each_step_holds.md). A command whose condition does not hold changing nothing is log entry 2. -/
def Obligations.EveryCommandCompletes : Prop :=
  ∀ c (s : State), ∃ t, exec c s = .next t ∧ t.pending = s.pending

/-! ## Resets -/

/-- R172 with R24, R51, R65, R85, R104, R122, R132, R147, R148: every block stands at its full-reset values when RSTn rises,
with the RESET NOTICE of cause PIN. The model's reset state is one that a pin reset with OVR deasserted and CSn high leaves
(log entry 4 for the two levels, entries 5 and 6 for the stream fields and the memory). -/
def Obligations.PinResetLeavesResetValues : Prop :=
  (∀ lv csnLow (s : State), ∃ t, exec (.pinReset lv csnLow) s = .next t ∧ s.FullyReset t .pin lv csnLow) ∧
    exec (.pinReset .deasserted false) State.reset = .next State.reset

/-- R169, R170: a RESET with scope FULL resets the whole part with cause REQUEST and has no reply; an exchange in progress is
abandoned (R151). -/
def Obligations.FullResetRequestHasNoReply : Prop :=
  ∀ (s : State) r rest, s.port.inbound = r :: rest → r.kind = 0x03 → r.payload = [0] →
    ∃ t, exec .resetFull s = .next t ∧ s.FullyReset t .request s.ovr.level s.port.csnLow

/-- R171 with R25, R52, R66, R86, R149: what a streams reset changes and what it keeps; R169: another scope is BAD_FIELD. -/
def Obligations.StreamsResetKeepsLinesAndPort : Prop :=
  ∀ (s : State) r rest, s.port.inbound = r :: rest → r.kind = 0x03 →
    (r.payload = [1] → ∃ t, exec .resetStreams s = .next t ∧
      (∀ i, (t.stream i).state = .closed ∧ (t.stream i).generation = (s.stream i).generation ∧ (t.stream i).queue = [] ∧
        (t.stream i).ring = [] ∧ (t.stream i).backlog = [] ∧ (t.stream i).sounding = false ∧
        (t.stream i).gapOpen = false ∧ (t.stream i).record = StreamRecord.empty) ∧
      (∀ l k, t.txBase l k = none ∧ t.txOverlay l k = none ∧ t.rxBase l k = none) ∧
      (∀ h, (t.desc h).state = .free) ∧
      t.freeList.Pairwise (· < ·) ∧ (∀ p, p ∈ t.freeList ↔ ∀ e ∈ s.port.outbound, e.page ≠ some p) ∧
      t.inFlight = s.inFlight.map (fun m => { m with void := true }) ∧ t.rotation = List.finRange 12 ∧
      t.claims = s.claims.filter (fun c => match c with
        | .domainEvent _ => true
        | .overrideEvent => true
        | .marker _ => true
        | _ => false) ∧
      t = { s with
        port := s.port.answered rest r .ok .nothing, streams := t.streams, owners := t.owners, descs := t.descs,
        freeList := t.freeList, inFlight := t.inFlight, rotation := t.rotation, claims := t.claims }) ∧
    ∀ b, r.payload = [b] → b ≠ 0 → b ≠ 1 → exec .resetStreams s = .next (s.answered rest r .badField .nothing)

/-! ## The Exchange Port -/

/-- R152 with Table 9-2, R131, R154 and R175: at a falling edge of CSn the frame carries the oldest UNSENT entry, else it is
an IDLE frame; and no event of the exchange changes it. -/
def Obligations.OutboundFrameComposedAndFixed : Prop :=
  (∀ (s : State), s.port.csnLow = false →
    let room := BitVec.ofNat 8 (8 - (s.port.inbound.length + s.port.outbound.countP Entry.isReply))
    let flags := BitVec.ofNat 8 (s.port.lastBad.toNat + 2 * s.port.lastSeq.toNat + 4 * s.port.lastFull.toNat +
      8 * s.ovr.latch.toNat + 16 * (decide (s.ovr.level = .asserted)).toNat)
    ((∀ e ∈ s.port.outbound, e.sent = true) → exec .csnFalling s = .next { s with
      port := { s.port with csnLow := true, frame := some {
        bytes := withCheck [0xA6, 0, s.port.lastIn, room, flags, 0, 0, 0], carries := none } } }) ∧
    ∀ front e back, s.port.outbound = front ++ e :: back → (∀ x ∈ front, x.sent = true) → e.sent = false →
      exec .csnFalling s = .next { s with
        port := { s.port with csnLow := true, frame := some {
          bytes := withCheck ([0xA6, e.seq, s.port.lastIn, room, flags, e.body.kindCode,
            BitVec.ofNat 8 (e.body.payload s.mem).length, BitVec.ofNat 8 ((e.body.payload s.mem).length / 256)] ++
            e.body.payload s.mem)
          carries := some e.seq } } }) ∧
  ∀ c (s t : State) f, s.port.frame = some f → s.port.csnLow = true → (∀ lv b, c ≠ .pinReset lv b) → (∀ sdi, c ≠ .endOfExchange sdi) →
    c ≠ .resetFull → exec c s = .next t → t.port.frame = some f ∧ t.port.csnLow = true

/-- R156 with R154 and R175: which byte strings are no frame, a good frame and a bad frame; bytes past a frame's end are
ignored. -/
def Obligations.InboundFramesJudged : Prop :=
  (∀ sdi, judge sdi = .noFrame ↔ sdi.head? ≠ some 0x5C) ∧
  (∀ (seq ack kind : Byte) (p extra : List Byte), p.length ≤ 1040 →
    judge (withCheck ([0x5C, seq, ack, kind, BitVec.ofNat 8 p.length, BitVec.ofNat 8 (p.length / 256)] ++ p) ++ extra) =
      .good seq ack kind p) ∧
  ∀ sdi seq ack kind p, judge sdi = .good seq ack kind p → p.length ≤ 1040 ∧ ∃ extra, sdi =
    withCheck ([0x5C, seq, ack, kind, BitVec.ofNat 8 p.length, BitVec.ofNat 8 (p.length / 256)] ++ p) ++ extra

/-- R163 with R63: an acknowledgement that names a carried entry removes it and every entry ahead of it, oldest first, and the
pages of the DATA entries among them join the tail of the free list in that order; any other removes nothing. -/
def Obligations.AcknowledgementRemovesRun : Prop :=
  ∀ (s : State) f sdi seq ack kind p, s.PortOk → s.port.frame = some f → judge sdi = .good seq ack kind p →
    ∃ t, exec (.endOfExchange sdi) s = .next t ∧
      (∀ front e back, s.marked f sdi = front ++ e :: back → e.carried = true → e.seq = ack →
        t.port.outbound.map (fun x => (x.seq, x.body, x.carried)) = back.map (fun x => (x.seq, x.body, x.carried)) ∧
        t.freeList = s.freeList ++ (front ++ [e]).filterMap Entry.page) ∧
      ((∀ e ∈ s.marked f sdi, e.carried = true → e.seq ≠ ack) →
        t.port.outbound.map (fun x => (x.seq, x.body, x.carried)) =
          (s.marked f sdi).map (fun x => (x.seq, x.body, x.carried)) ∧ t.freeList = s.freeList)

/-- R164, R153: at the end of an exchange the part goes back when it holds a due entry and the exchange brought no good frame
or left that entry standing; then every entry is UNSENT and none is due. Otherwise the sending marks stay and the entry
carried becomes the due entry if it still stands. -/
def Obligations.DueEntryGoesBack : Prop :=
  ∀ (s : State) f sdi, s.PortOk → s.port.frame = some f →
    ∃ t, exec (.endOfExchange sdi) s = .next t ∧
      let good := ∃ seq ack kind p, judge sdi = .good seq ack kind p
      let back := ∃ q, s.port.due = some q ∧ (¬ good ∨ ∃ e ∈ t.port.outbound, e.seq = q)
      (back → t.port.due = none ∧ ∀ e ∈ t.port.outbound, e.sent = false) ∧
      (¬ back → (∀ e ∈ t.port.outbound, e ∈ s.marked f sdi) ∧
        ∀ q, t.port.due = some q ↔
          f.carries = some q ∧ f.bytes.length ≤ sdi.length ∧ ∃ e ∈ t.port.outbound, e.seq = q)

/-- R157 with R159 and R158: what becomes of the request of a good frame, by its kind and its number against the last accepted
one, and the flags that the next header shows. The room is that of step 6 of R155, after the acknowledgement. -/
def Obligations.RequestOfGoodFrame : Prop :=
  ∀ (s : State) f sdi seq ack kind p, s.PortOk → s.port.frame = some f → judge sdi = .good seq ack kind p →
    ∃ t, exec (.endOfExchange sdi) s = .next t ∧
      let room := 8 - (s.port.inbound.length + t.port.outbound.countP Entry.isReply)
      let L := s.port.lastIn
      let next : BitVec 8 := if L = 255 then 1 else L + 1
      let kept := t.port.inbound = s.port.inbound ∧ t.port.lastIn = L
      let flags := (t.port.lastBad, t.port.lastSeq, t.port.lastFull)
      (kind = 0 → kept ∧ flags = (false, false, false)) ∧
      (kind ≠ 0 → seq = L → L ≠ 0 → kept ∧ flags = (false, false, false)) ∧
      (kind ≠ 0 → seq = next → 0 < room →
        t.port.inbound = s.port.inbound ++ [{ seq := seq, kind := kind, payload := p }] ∧ t.port.lastIn = seq ∧
        flags = (false, false, false)) ∧
      (kind ≠ 0 → seq = next → room = 0 → kept ∧ flags = (false, false, true)) ∧
      (kind ≠ 0 → seq ≠ next → (seq ≠ L ∨ L = 0) → kept ∧ flags = (false, true, false))

/-- R155, R158, R151: the end of an exchange changes nothing but the port and the free list; without a good frame nothing
inbound is read; an abandoned exchange ends with nothing evaluated and the three flags clear. -/
def Obligations.EndOfExchangeTouchesPortAlone : Prop :=
  ∀ (s : State) sdi, s.port.csnLow = true →
    ∃ t, exec (.endOfExchange sdi) s = .next t ∧ t = { s with port := t.port, freeList := t.freeList } ∧
      t.port.csnLow = false ∧ t.port.frame = none ∧ t.port.lastOut = s.port.lastOut ∧
      (s.port.frame = none → t = { s with
        port := { s.port with lastBad := false, lastSeq := false, lastFull := false, csnLow := false } }) ∧
      (∀ f, s.port.frame = some f → judge sdi = .noFrame ∨ judge sdi = .bad →
        t.port.inbound = s.port.inbound ∧ t.port.lastIn = s.port.lastIn ∧ t.freeList = s.freeList ∧
        t.port.outbound.map (fun x => (x.seq, x.body)) = s.port.outbound.map (fun x => (x.seq, x.body)) ∧
        (t.port.lastBad = true ↔ judge sdi = .bad) ∧ t.port.lastSeq = false ∧ t.port.lastFull = false)

/-- R167 with Table 9-6 and R178: IDENTIFY is answered with the same values at every taking, and changes nothing else. -/
def Obligations.IdentifyReply : Prop :=
  (∀ (s : State) r rest, s.port.inbound = r :: rest → r.kind = 0x01 → r.payload = [] →
    exec .identify s = .next (s.answered rest r .ok .identify)) ∧
  ∀ (q : BitVec 8) (m : Memory), (EntryBody.reply { seq := q, kind := 0x01, status := .ok, body := .identify }).payload m =
    [q, 0x01, 0x00, 0x42, 0x12, 0x08, 0x01, 8, 2, 12, 16, 8, 48, 0x00, 0x20, 0x00, 0x80, 0x00, 0x01, 0x00, 0x02, 8, 16,
      0x10, 0x04]

/-- R168 with Table 9-7: the STATUS reply carries the values as they stand when the request is taken, and STATUS changes
nothing else. The claim list length stops at 65535 (log entry 18). -/
def Obligations.StatusReply : Prop :=
  ∀ (s : State) r rest, s.port.inbound = r :: rest → r.kind = 0x02 → r.payload = [] →
    exec .status s = .next (s.answered rest r .ok (.status {
      freeDescs := (List.finRange 48).countP fun h => (s.desc h).state = .free
      freePages := s.freeList.length, claims := min s.claims.length 65535
      reports := s.port.outbound.countP fun e => !e.isReply
      level := s.ovr.level, latch := s.ovr.latch, stateA := s.domA.state, counterA := s.domA.counter
      stateB := s.domB.state, counterB := s.domB.counter, mode := s.mode, moving := s.inFlight.isSome }))

/-- R176 and R161: a request whose length does not fit its kind is refused BAD_LENGTH with no results, and one of a kind that
Table 10-4 does not list is refused UNKNOWN_KIND; neither changes anything else. NOP is never queued (R157). -/
def Obligations.MisfitRequestsRefused : Prop :=
  (∀ k ∈ takings, ∀ (s : State) r rest, s.port.inbound = r :: rest → r.kind = k.kind → k.fits r.payload = false →
    exec k.command s = .next (s.answered rest r .badLength .nothing)) ∧
  ∀ (s : State) r rest, s.port.inbound = r :: rest → r.kind ≠ 0 → (∀ k ∈ takings, r.kind ≠ k.kind) →
    exec .unknownKind s = .next (s.answered rest r .unknownKind .nothing)

/-- R161, R162, R178: a taken request leaves the inbound queue and its one reply joins the tail of the outbound queue; a
refused request changes nothing else. A request of another kind, and a RESET or STOP that the table's other row for it
takes, is not taken by this command (log entries 1, 2, 17). -/
def Obligations.TakenRequestAnsweredOnce : Prop :=
  ∀ k ∈ takings, ∀ (s : State) r rest, s.port.inbound = r :: rest →
    let otherRow := k.command = .resetStreams ∧ r.payload = [0] ∨
      k.command = .stopDrain ∧ r.payload.length = 3 ∧ r.payload.getD 2 0 = 1 ∨
      k.command = .stopAbort ∧ r.payload.length = 3 ∧ r.payload.getD 2 0 = 0
    ∃ t, exec k.command s = .next t ∧
      (r.kind ≠ k.kind ∨ otherRow → t = s) ∧
      (r.kind = k.kind → ¬ otherRow → ∃ st b, t.port = s.port.answered rest r st b ∧
        (st ≠ .ok → t = s.answered rest r st b ∧ (b = .nothing ∨ b = .subject (r.payload.getD 0 0))))

/-! ## Clock Domains -/

/-- R89: the checks of SET DOMAIN in their order; R90, R102, R120: what a SET DOMAIN that passes them does. That the lanes'
transmit frames and gathered frames are cut off is log entry 15. -/
def Obligations.SetDomainEffect : Prop :=
  ∀ (s : State) r rest (bd bs bv bn bw : Byte), s.port.inbound = r :: rest → r.kind = 0x10 → r.payload = [bd, bs, bv, bn, bw] →
    (∀ d, domainOf bd = some d →
      refusedInOrder
        [ (bs.toNat ≤ 2 ∧ 1 ≤ bv.toNat ∧ bv.toNat ≤ 64 ∧ bn.toNat ∈ [2, 4, 8] ∧ bw.toNat ∈ [16, 24, 32], .badField),
          (∀ l k, (s.lane l).domain = d → s.txBase l k = none ∧ s.txOverlay l k = none ∧ s.rxBase l k = none, .domainBusy),
          ((∃ l, (s.lane l).domain = d ∧ ((s.lane l).txMarker = true ∨ (s.lane l).rxMarker = true)) → bw = 32,
            .markerWidth) ]
        (fun st => exec .setDomain s = .next (s.answered rest r st (.subject bd))) ∧
      ∀ src, sourceOf bs = some src → 1 ≤ bv.toNat → bv.toNat ≤ 64 → bn.toNat ∈ [2, 4, 8] → bw.toNat ∈ [16, 24, 32] →
        (∀ l k, (s.lane l).domain = d → s.txBase l k = none ∧ s.txOverlay l k = none ∧ s.rxBase l k = none) →
        ((∃ l, (s.lane l).domain = d ∧ ((s.lane l).txMarker = true ∨ (s.lane l).rxMarker = true)) → bw = 32) →
        ∃ t, exec .setDomain s = .next t ∧
          let old := (s.domain d).state
          let new : DomainState := match src with
            | .off => .off
            | .external => .acquiring
            | .internal => .locked
          let transition := old ≠ new ∧ (old = .locked ∨ new = .locked)
          t = { s with
            port := s.port.answered rest r .ok (.domain d new 0), domA := t.domA, domB := t.domB, lanes := t.lanes,
            claims := t.claims } ∧
          (∀ e, e ≠ d → t.domain e = s.domain e) ∧
          (transition → (t.domain d).record = {
            latest := new, transitions := bump (s.domain d).record.transitions, counter := 0 } ∧
            t.claims = if Claim.domainEvent d ∈ s.claims then s.claims else s.claims ++ [.domainEvent d]) ∧
          (¬ transition → (t.domain d).record = (s.domain d).record ∧ t.claims = s.claims) ∧
          t.domain d = {
            source := src, divider := bv.toNat, slots := bn.toNat, width := bw.toNat, state := new, counter := 0,
            goodRun := 0, lastGood := none, measuring := false, delivers := false, record := (t.domain d).record } ∧
          ∀ l, t.lane l = if (s.lane l).domain = d then
            { s.lane l with assembly := none, txFrame := none, gathering := false } else s.lane l) ∧
    (domainOf bd = none → exec .setDomain s = .next (s.answered rest r .badField (.subject bd)))

/-- R101: QUERY TIME shows the domain's state and counter and changes nothing; a domain other than A or B is BAD_FIELD. -/
def Obligations.QueryTimeReadsCounter : Prop :=
  ∀ (s : State) r rest b, s.port.inbound = r :: rest → r.kind = 0x11 → r.payload = [b] →
    (b = 0 → exec .queryTime s = .next (s.answered rest r .ok (.domain .a s.domA.state s.domA.counter))) ∧
    (b = 1 → exec .queryTime s = .next (s.answered rest r .ok (.domain .b s.domB.state s.domB.counter))) ∧
    (b ≠ 0 → b ≠ 1 → exec .queryTime s = .next (s.answered rest r .badField (.subject b)))

/-- R97, R99, R90, R104: a domain's counter moves only by one at a frame event taken while LOCKED, or to 0 at SET DOMAIN and at
a full reset. -/
def Obligations.CounterMovesOnlyAtFrameEvents : Prop :=
  ∀ c (s t : State) d, s.DomainsOk → exec c s = .next t →
    (t.domain d).counter = (s.domain d).counter ∨
    ((t.domain d).counter = (s.domain d).counter + 1 ∧ (t.domain d).state = .locked ∧
      ((∃ bits duration rx, c = .frameClosed d bits duration rx) ∨ ∃ rx, c = .generatorBoundary d rx)) ∨
    ((t.domain d).counter = 0 ∧ (c = .setDomain ∨ c = .resetFull ∨ ∃ lv b, c = .pinReset lv b))

/-- R92, R95, R91: while ACQUIRING or LOST a good frame raises the good run, and the edge that closes the sixteenth makes the
domain LOCKED and is its first frame event; R102: the transition recorded with the number of the frame committed. The
edge that only opens a measured frame is log entry 11. -/
def Obligations.SixteenthGoodFrameLocks : Prop :=
  ∀ (s : State) d bits duration rx, (s.domain d).source = .external →
    ((s.domain d).measuring = false → exec (.frameClosed d bits duration rx) s =
      .next (s.modDomain d fun dm => { dm with measuring := true })) ∧
    ((s.domain d).measuring = true → (s.domain d).state = .acquiring ∨ (s.domain d).state = .lost →
      bits = (s.domain d).slots * (s.domain d).width →
      ((s.domain d).goodRun + 1 ≠ 16 → exec (.frameClosed d bits duration rx) s =
        .next (s.modDomain d fun dm => { dm with goodRun := dm.goodRun + 1, lastGood := some duration })) ∧
      ((s.domain d).goodRun + 1 = 16 → ∃ t, exec (.frameClosed d bits duration rx) s = .next t ∧
        t.domain d = { s.domain d with
          state := .locked, goodRun := 0, lastGood := some duration, counter := (s.domain d).counter + 1, delivers := true,
          record := { latest := .locked, transitions := bump (s.domain d).record.transitions,
                      counter := (s.domain d).counter } } ∧
        Claim.domainEvent d ∈ t.claims ∧ (∀ e, e ≠ d → t.domain e = s.domain e) ∧
        t.port = s.port ∧ t.mem = s.mem ∧ t.ovr = s.ovr ∧ t.owners = s.owners))

/-- R93, R94, R92, R95: a bad frame and a timeout lose a lock, with the counter standing; while ACQUIRING or LOST they end the
good run. No timeout runs without a last good duration. When a timeout is out of time is log entry 12. -/
def Obligations.LossOfLock : Prop :=
  (∀ (s : State) d bits duration rx, (s.domain d).source = .external → (s.domain d).measuring = true →
    bits ≠ (s.domain d).slots * (s.domain d).width →
    ((s.domain d).state = .locked → exec (.frameClosed d bits duration rx) s = .next (s.afterLoss d true)) ∧
    ((s.domain d).state = .acquiring ∨ (s.domain d).state = .lost → exec (.frameClosed d bits duration rx) s =
      .next (s.modDomain d fun dm => { dm with goodRun := 0 }))) ∧
  (∀ (s : State) d elapsed g, (s.domain d).lastGood = some g →
    ((s.domain d).source = .external → (s.domain d).state = .locked → 2 * g ≤ elapsed →
      exec (.lockTimeout d elapsed) s = .next (s.afterLoss d false)) ∧
    ((s.domain d).state = .acquiring ∨ (s.domain d).state = .lost → 2 * g ≤ elapsed →
      exec (.goodRunTimeout d elapsed) s = .next (s.modDomain d fun dm => { dm with goodRun := 0, lastGood := none })) ∧
    (elapsed < 2 * g → exec (.lockTimeout d elapsed) s = .next s ∧ exec (.goodRunTimeout d elapsed) s = .next s)) ∧
  ∀ (s : State) d elapsed, (s.domain d).lastGood = none →
    exec (.lockTimeout d elapsed) s = .next s ∧ exec (.goodRunTimeout d elapsed) s = .next s

/-- R97 with R6, R107, R110: a frame event of domain `d` advances its counter and touches nothing of the port, the memory, the
arbiter, the Override Unit and the ownership entries, nor the streams, descriptors and lanes of the other domain. The event
that locks the domain is the first (R92, R95) and records the transition too (R102). -/
def Obligations.FrameEventStaysInDomain : Prop :=
  ∀ (s : State) c d rx, s.makesFrameEvent c d rx →
    ∃ t, exec c s = .next t ∧
      (s.takesFrameEvent c d rx → t.domain d = { s.domain d with
        counter := (s.domain d).counter + 1, delivers := true, lastGood := (t.domain d).lastGood }) ∧
      (s.locksAtEvent c d rx → Claim.domainEvent d ∈ t.claims ∧ t.domain d = { s.domain d with
        state := .locked, goodRun := 0, counter := (s.domain d).counter + 1, delivers := true
        lastGood := (t.domain d).lastGood
        record := { latest := .locked, transitions := bump (s.domain d).record.transitions,
                    counter := (s.domain d).counter } }) ∧
      (∀ bits duration, c = .frameClosed d bits duration rx → (t.domain d).lastGood = some duration) ∧
      (c = .generatorBoundary d rx → (t.domain d).lastGood = (s.domain d).lastGood) ∧
      (∀ e, e ≠ d → t.domain e = s.domain e) ∧
      t.port = s.port ∧ t.mem = s.mem ∧ t.owners = s.owners ∧ t.mode = s.mode ∧ t.rotation = s.rotation ∧ t.ovr = s.ovr ∧
      s.claims <+: t.claims ∧ s.freeList <+: t.freeList ∧
      t.inFlight.map (fun m => { m with void := false }) = s.inFlight.map (fun m => { m with void := false }) ∧
      (∀ i, (s.stream i).state = .closed ∨ (s.stream i).domain ≠ d → t.stream i = s.stream i) ∧
      (∀ h, (∀ i, (s.stream i).state ≠ .closed → (s.stream i).domain = d → h ∉ (s.stream i).queue) → t.desc h = s.desc h) ∧
      (∀ l, (s.lane l).domain ≠ d → t.lane l = s.lane l) ∧
      ∀ l, (s.lane l).domain = d → (t.lane l).txFrame.isSome = (s.lane l).txEnable ∧
        (t.lane l).gathering = (s.lane l).rxEnable ∧ (t.lane l).domain = d ∧ (t.lane l).txEnable = (s.lane l).txEnable ∧
        (t.lane l).rxEnable = (s.lane l).rxEnable ∧ (t.lane l).txMarker = (s.lane l).txMarker ∧
        (t.lane l).rxMarker = (s.lane l).rxMarker

/-- R98, R20, R120: the first frame event of a lock delivers no receive frame, so the capture streams of the domain stand as
they stood and its lanes hold no received-marker assembly; the next event delivers. -/
def Obligations.FirstEventDeliversNothing : Prop :=
  ∀ (s : State) c d rx, s.PlacesOk →
    (s.takesFrameEvent c d rx ∧ (s.domain d).delivers = false ∨
      ∃ duration, c = .frameClosed d ((s.domain d).slots * (s.domain d).width) duration rx ∧
        (s.domain d).source = .external ∧ (s.domain d).measuring = true ∧ (s.domain d).goodRun = 15 ∧
        ((s.domain d).state = .acquiring ∨ (s.domain d).state = .lost)) →
    ∃ t, exec c s = .next t ∧ (t.domain d).delivers = true ∧
      (∀ i, (s.stream i).direction = .capture → t.stream i = s.stream i ∧ ∀ h ∈ (s.stream i).queue, t.desc h = s.desc h) ∧
      ∀ l, (s.lane l).domain = d → (t.lane l).assembly = none ∧ (t.lane l).lastReported = (s.lane l).lastReported ∧
        (t.lane l).eventWord = (s.lane l).eventWord

/-! ## Lanes -/

/-- R108: the checks of SET LANE in their order; R109: what a SET LANE that passes them does. -/
def Obligations.SetLaneEffect : Prop :=
  ∀ (s : State) r rest (bl bd b2 b3 b4 b5 : Byte), s.port.inbound = r :: rest → r.kind = 0x12 → r.payload = [bl, bd, b2, b3, b4, b5] →
    (∀ l d, laneOf bl = some l → domainOf bd = some d →
      refusedInOrder
        [ (b2.toNat ≤ 1 ∧ b3.toNat ≤ 1 ∧ b4.toNat ≤ 1 ∧ b5.toNat ≤ 1, .badField),
          (∀ k, s.txBase l k = none ∧ s.txOverlay l k = none ∧ s.rxBase l k = none, .laneInUse),
          (b4 = 1 ∨ b5 = 1 → (s.domain d).width = 32, .markerWidth) ]
        (fun st => exec .setLane s = .next (s.answered rest r st (.subject bl))) ∧
      ∀ tx rx txm rxm, flagOf b2 = some tx → flagOf b3 = some rx → flagOf b4 = some txm → flagOf b5 = some rxm →
        (∀ k, s.txBase l k = none ∧ s.txOverlay l k = none ∧ s.rxBase l k = none) →
        (txm = true ∨ rxm = true → (s.domain d).width = 32) →
        exec .setLane s = .next { s.modLane l (fun ln => { ln with
            domain := d, txEnable := tx, rxEnable := rx, txMarker := txm, rxMarker := rxm, assembly := none,
            lastReported := none, txFrame := none, gathering := false }) with
          port := s.port.answered rest r .ok (.lane l d tx rx txm rxm) }) ∧
    (laneOf bl = none ∨ domainOf bd = none → exec .setLane s = .next (s.answered rest r .badField (.subject bl)))

/-- R118: SET MARKER stages the word whatever the lane and its domain, and shows whether it replaced one; a lane outside 0 to 7
is BAD_FIELD. -/
def Obligations.SetMarkerStagesWord : Prop :=
  ∀ (s : State) r rest (b w0 w1 w2 w3 : Byte), s.port.inbound = r :: rest → r.kind = 0x13 → r.payload = [b, w0, w1, w2, w3] →
    (∀ l : LaneNo, b.toNat = l.val → exec .setMarker s = .next { s.modLane l (fun ln => { ln with
        staged := some (w3 ++ w2 ++ w1 ++ w0) }) with
      port := s.port.answered rest r .ok (.marker l (s.lane l).staged.isSome) }) ∧
    (8 ≤ b.toNat → exec .setMarker s = .next (s.answered rest r .badField (.subject b)))

/-! ## The Stream Table -/

/-- R1: a request that concerns one stream is checked for the stream number, then the state, then the generation; the first
that fails gives the reply, which carries the stream number as given, and nothing changes. OPEN has no generation. -/
def Obligations.StreamRequestCheckOrder : Prop :=
  (∀ k ∈ streamTakings, ∀ (s : State) r rest b g p, s.port.inbound = r :: rest → r.kind = k.kind → r.payload = b :: g :: p →
    k.takes r.payload = true →
    (12 ≤ b.toNat → exec k.command s = .next (s.answered rest r .badField (.subject b))) ∧
    ∀ i : StreamNo, b.toNat = i.val →
      refusedInOrder [(k.accepts (s.stream i) = true, .badState), (g = (s.stream i).generation, .stale)]
        fun st => exec k.command s = .next (s.answered rest r st (.subject b))) ∧
  ∀ (s : State) r rest b p, s.port.inbound = r :: rest → r.kind = 0x20 → r.payload = b :: p → 7 ≤ r.payload.length →
    r.payload.length = 7 + 2 * (r.payload.getD 6 0).toNat →
    (12 ≤ b.toNat → exec .openStream s = .next (s.answered rest r .badField (.subject b))) ∧
    ∀ i : StreamNo, b.toNat = i.val → (s.stream i).state ≠ .closed →
      exec .openStream s = .next (s.answered rest r .badState (.subject b))

/-- R7 with Table 10-8 and R174: the fields of OPEN and their ranges; R8: the checks of OPEN in their order; R9 with R2 and
R4: what an OPEN that passes them does. The map bytes are lane and slot in turn, and `d` is the domain of the first lane
named. -/
def Obligations.OpenEffect : Prop :=
  ∀ (s : State) r rest (b bDir bCls bOv bWidth bDepth bCount : Byte) (pairs : List (Byte × Byte)) (i : StreamNo),
    s.port.inbound = r :: rest → r.kind = 0x20 →
    r.payload = [b, bDir, bCls, bOv, bWidth, bDepth, bCount] ++ pairs.flatMap (fun e => [e.1, e.2]) →
    bCount.toNat = pairs.length → b.toNat = i.val → (s.stream i).state = .closed →
    let legal := bDir.toNat ≤ 1 ∧ bCls.toNat ≤ 1 ∧ bOv.toNat ≤ 1 ∧ bWidth.toNat ∈ [2, 3, 4] ∧
      1 ≤ bDepth.toNat ∧ bDepth.toNat ≤ 8 ∧ 1 ≤ pairs.length ∧ pairs.length ≤ 16 ∧
      (∀ e ∈ pairs, e.1.toNat ≤ 7 ∧ e.2.toNat ≤ 7) ∧ pairs.Nodup ∧ (bOv = 1 → bCls = 1 ∧ bDir = 0)
    (¬ legal → exec .openStream s = .next (s.answered rest r .badField (.subject b))) ∧
    ∀ map : List (LaneNo × SlotNo), legal →
      map.map (fun e => (e.1.val, e.2.val)) = pairs.map (fun e => (e.1.toNat, e.2.toNat)) →
      let direction : Direction := if bDir = 0 then .play else .capture
      let overlay := decide (bOv = 1)
      let d := (s.lane (map.headD (0, 0)).1).domain
      let role := fun e : LaneNo × SlotNo =>
        if direction = .capture then s.rxBase e.1 e.2
        else if overlay then s.txOverlay e.1 e.2 else s.txBase e.1 e.2
      let checks : List (Prop × Status) :=
        [ (∀ e ∈ map, (s.lane e.1).domain = d, .domainMismatch),
          ((s.domain d).source ≠ .off, .domainOff),
          (∀ e ∈ map, (if direction = .play then (s.lane e.1).txEnable else (s.lane e.1).rxEnable) = true, .laneDisabled),
          (∀ e ∈ map, e.2.val < (s.domain d).slots, .badField),
          (8 * bWidth.toNat ≤ (s.domain d).width, .widthMismatch),
          (∀ e ∈ map, role e = none, .slotTaken) ]
      refusedInOrder checks (fun st => exec .openStream s = .next (s.answered rest r st (.subject b))) ∧
      ((∀ c ∈ checks, c.1) → ∃ t, exec .openStream s = .next t ∧
        t = { s.modStream i (fun st => {
            state := .idle, generation := st.generation + 1, direction := direction
            cls := if bCls = 0 then .normal else .override
            overlay := overlay, width := bWidth.toNat, depth := bDepth.toNat, map := map, domain := d, queue := [],
            ring := [], backlog := [], sounding := false, gapOpen := false,
            record := { gapStart := none, gapEnd := none, gapFrames := 0, drained := false } }) with
          port := s.port.answered rest r .ok (.opening i ((s.stream i).generation + 1)), owners := t.owners } ∧
        ∀ l k,
          t.rxBase l k = (if direction = .capture ∧ (l, k) ∈ map then some i else s.rxBase l k) ∧
          t.txOverlay l k = (if direction = .play ∧ overlay = true ∧ (l, k) ∈ map then some i else s.txOverlay l k) ∧
          t.txBase l k = (if direction = .play ∧ overlay = false ∧ (l, k) ∈ map then some i else s.txBase l k))

/-- R10: START makes an IDLE stream RUNNING with both flags clear and its event record, ring and lead as they were; with an
empty queue or a LOADING head nothing else happens. -/
def Obligations.StartRunsStream : Prop :=
  ∀ (s : State) r rest b g (i : StreamNo), s.port.inbound = r :: rest → r.kind = 0x22 → r.payload = [b, g] → b.toNat = i.val →
    (s.stream i).state = .idle → g = (s.stream i).generation →
    ∃ t, exec .startStream s = .next t ∧ t.port = s.port.answered rest r .ok (.stream i) ∧
      (t.stream i).state = .running ∧ (t.stream i).sounding = false ∧ (t.stream i).gapOpen = false ∧
      (t.stream i).record = (s.stream i).record ∧ (t.stream i).ring = (s.stream i).ring ∧
      (∀ j, j ≠ i → t.stream j = s.stream j) ∧ (∀ h, h ∉ (s.stream i).queue → t.desc h = s.desc h) ∧
      t = { s with
        port := t.port, streams := t.streams, descs := t.descs, freeList := t.freeList, claims := t.claims } ∧
      ((∀ h ∈ (s.stream i).queue.head?, (s.desc h).state = .loading) → t =
        { s.modStream i (fun st => { st with state := .running, sounding := false, gapOpen := false }) with
          port := s.port.answered rest r .ok (.stream i) })

/-- R32, R33, R35 for a play stream and R34, R36 for a capture stream: the READY head becomes eligible at START. The span
start is fixed at the first frame open to the stream, or at T; positions whose frames precede it are late. At a
distance of exactly 2^31 frames T counts as earlier than the first free frame of a play stream, as the last sentences of R35
and R100 say, and not as earlier than the first open frame of a capture stream, by the test of R100 (log entry 10). -/
def Obligations.HeadEligibleAtStart : Prop :=
  ∀ (s : State) r rest b (i : StreamNo) h q, s.port.inbound = r :: rest → r.kind = 0x22 → r.payload = [b, (s.stream i).generation] →
    b.toNat = i.val → (s.stream i).state = .idle → (s.stream i).queue = h :: q → (s.desc h).state = .ready →
    h ∉ q → 1 ≤ (s.desc h).frames → (s.desc h).resolved = 0 → (s.desc h).counts = Counts.zero → (s.desc h).gone = 0 →
    let dm := s.domain (s.stream i).domain
    let first : FrameNo := match (s.stream i).direction with
      | .play => dm.counter + BitVec.ofNat 32 (s.stream i).ring.length
      | .capture => if dm.delivers then dm.counter - 1 else dm.counter
    let S : FrameNo := match (s.desc h).start with
      | .immediate => first
      | .at T => T
    let early := (first - S).toNat
    let earlier := 1 ≤ early ∧ (early < 2 ^ 31 ∨ (s.stream i).direction = .play ∧ early = 2 ^ 31)
    ∃ t, exec .startStream s = .next t ∧
      (¬ earlier → t.desc h = { s.desc h with
        state := .waiting, span := some S, assigned := if (s.stream i).direction = .play then (s.desc h).assigned else 0 } ∧
        (t.stream i).queue = h :: q ∧ (t.stream i).backlog = (s.stream i).backlog) ∧
      (earlier → early < (s.desc h).frames → (s.stream i).direction = .play →
        (t.desc h).state = .waiting ∧ (t.desc h).span = some S ∧ (t.desc h).resolved = early ∧
        (t.desc h).counts = { Counts.zero with late := early } ∧ (t.stream i).queue = h :: q) ∧
      (earlier → early < (s.desc h).frames → (s.stream i).direction = .capture →
        (t.desc h).state = .waiting ∧ (t.desc h).span = some S ∧ (t.desc h).resolved = 0 ∧ (t.desc h).assigned = early ∧
        (t.stream i).queue = h :: q ∧
        (t.stream i).backlog = (s.stream i).backlog ++ (List.range early).map fun k =>
          { handle := h, position := k, frame := S + BitVec.ofNat 32 k, kind := .lateZero }) ∧
      (earlier → (s.desc h).frames ≤ early →
        (t.desc h).state = .retired ∧ (t.desc h).outcome = some .late ∧ (t.desc h).span = some S ∧
        (t.desc h).counts = { Counts.zero with late := (s.desc h).frames } ∧ h ∉ (t.stream i).queue ∧
        Claim.done h ∈ t.claims)

/-- R11: STOP with mode DRAIN by state; a mode that is neither DRAIN nor ABORT is BAD_FIELD. -/
def Obligations.StopDrainByState : Prop :=
  ∀ (s : State) r rest b m (i : StreamNo), s.port.inbound = r :: rest → r.kind = 0x23 →
    r.payload = [b, (s.stream i).generation, m] → b.toNat = i.val →
    (m = 0 → (s.stream i).state = .running → (s.stream i).queue ≠ [] → exec .stopDrain s = .next
      { s.modStream i (fun st => { st with state := .stopping }) with port := s.port.answered rest r .ok (.stream i) }) ∧
    (m = 0 → (s.stream i).state = .running → (s.stream i).queue = [] → exec .stopDrain s = .next
      { s.modStream i (fun st => { st with
          state := .idle, gapOpen := false, record := { st.record with drained := true } }) with
        port := s.port.answered rest r .ok (.stream i)
        claims := if Claim.streamEvent i ∈ s.claims then s.claims else s.claims ++ [.streamEvent i] }) ∧
    (m = 0 → (s.stream i).state = .stopping ∨ (s.stream i).state = .idle →
      exec .stopDrain s = .next (s.answered rest r .ok (.stream i))) ∧
    (2 ≤ m.toNat → (s.stream i).state ≠ .closed →
      exec .stopDrain s = .next (s.answered rest r .badField (.subject b)) ∧
      exec .stopAbort s = .next (s.answered rest r .badField (.subject b)))

/-- R13, R14 with R45, R46, R48, R58, R61: STOP with mode ABORT retires the queue oldest first, each descriptor CUT or DISCARDED, drops the
backlog, voids the stream's move and leaves the stream IDLE with its ring, sounding flag and event record as they were. The
pages of a play descriptor are released; of a capture descriptor a page written in part passes to a DATA claim ahead of the
DONE claim, and the pages never written are released. -/
def Obligations.StopAbortRetiresQueue : Prop :=
  ∀ (s : State) r rest b (i : StreamNo), s.port.inbound = r :: rest → r.kind = 0x23 → r.payload = [b, (s.stream i).generation, 1] →
    b.toNat = i.val → (s.stream i).state ≠ .closed → (s.stream i).queue.Nodup →
    ∃ t, exec .stopAbort s = .next t ∧
      t.stream i = { s.stream i with state := .idle, gapOpen := false, queue := [], backlog := [] } ∧
      (∀ j, j ≠ i → t.stream j = s.stream j) ∧
      t.inFlight = s.inFlight.map (fun m => { m with void := m.void || decide (m.stream = i) }) ∧
      (∀ h, h ∉ (s.stream i).queue → t.desc h = s.desc h) ∧
      (∀ h ∈ (s.stream i).queue,
        let d := s.desc h
        let cut := d.state = .active ∨ d.state = .waiting ∧ 0 < d.resolved
        t.desc h = { d with
          state := .retired, gone := (t.desc h).gone
          outcome := if cut then some .cut else some .discarded
          span := if cut then d.span else none
          endFrame := if cut ∧ 0 < d.resolved then d.span.map (fun S => S + BitVec.ofNat 32 (d.resolved - 1)) else none
          counts := { d.counts with unreached := d.frames - d.resolved } }) ∧
      s.claims <+: t.claims ∧
      t.claims.filter (fun c => c matches .done _) =
        s.claims.filter (fun c => c matches .done _) ++ (s.stream i).queue.map Claim.done ∧
      ((s.stream i).direction = .play → (∀ h ∈ (s.stream i).queue, (s.desc h).direction = .play) →
        t.claims = s.claims ++ (s.stream i).queue.map Claim.done ∧
        t.freeList = s.freeList ++ (s.stream i).queue.flatMap fun h => (s.desc h).pages.drop (s.desc h).gone) ∧
      ((s.stream i).direction = .capture →
        (∀ h ∈ (s.stream i).queue, (s.desc h).direction = .capture ∧ (s.desc h).gone = (s.desc h).written / 512 ∧
          (s.desc h).written ≤ 512 * (s.desc h).pages.length) →
        let part := fun h =>
          let d := s.desc h
          if d.written % 512 = 0 then [] else (d.pages[d.written / 512]?).toList.map fun p => Claim.data {
            stream := d.stream, generation := d.generation, handle := h, tag := d.tag, offset := 512 * (d.written / 512),
            count := d.written % 512, page := p }
        t.claims = s.claims ++ (s.stream i).queue.flatMap (fun h => part h ++ [Claim.done h]) ∧
        t.freeList = s.freeList ++ (s.stream i).queue.flatMap fun h =>
          (s.desc h).pages.drop (((s.desc h).written + 511) / 512)) ∧
      t = { s with
        port := s.port.answered rest r .ok (.stream i), streams := t.streams, descs := t.descs, freeList := t.freeList,
        inFlight := t.inFlight, claims := t.claims }

/-- R15, R16, R49, R137: CLOSE retires the LOADING and READY descriptors DISCARDED, frees both roles of the stream's positions,
withdraws its ring entries, voids its move, detaches its STREAM EVENT claim, and keeps its generation. -/
def Obligations.CloseReleasesEverything : Prop :=
  ∀ (s : State) r rest b (i : StreamNo), s.port.inbound = r :: rest → r.kind = 0x21 → r.payload = [b, (s.stream i).generation] →
    b.toNat = i.val → (s.stream i).state = .idle → (s.stream i).queue.Nodup →
    (∀ h ∈ (s.stream i).queue, (s.desc h).eligible = false ∧ (s.desc h).resolved = 0 ∧ (s.desc h).written = 0) →
    ∃ t, exec .closeStream s = .next t ∧
      t.stream i = { s.stream i with state := .closed, queue := [], ring := [], record := StreamRecord.empty } ∧
      (∀ j, j ≠ i → t.stream j = s.stream j) ∧
      (∀ l k, t.txBase l k = (if s.txBase l k = some i then none else s.txBase l k) ∧
        t.txOverlay l k = (if s.txOverlay l k = some i then none else s.txOverlay l k) ∧
        t.rxBase l k = (if s.rxBase l k = some i then none else s.rxBase l k)) ∧
      t.inFlight = s.inFlight.map (fun m => { m with void := m.void || decide (m.stream = i) }) ∧
      (∀ h, h ∉ (s.stream i).queue → t.desc h = s.desc h) ∧
      (∀ h ∈ (s.stream i).queue, (t.desc h).state = .retired ∧ (t.desc h).outcome = some .discarded ∧
        (t.desc h).span = none ∧ (t.desc h).endFrame = none ∧
        (t.desc h).counts = { (s.desc h).counts with unreached := (s.desc h).frames }) ∧
      t.freeList = s.freeList ++ (s.stream i).queue.flatMap (fun h => (s.desc h).pages.drop (s.desc h).gone) ∧
      t.claims = (s.claims ++ (s.stream i).queue.map Claim.done).map (fun c =>
        if c = Claim.streamEvent i then Claim.streamDetached i (s.stream i).generation (s.stream i).record else c) ∧
      t = { s with
        port := s.port.answered rest r .ok (.opening i (s.stream i).generation), streams := t.streams, owners := t.owners,
        descs := t.descs, freeList := t.freeList, inFlight := t.inFlight, claims := t.claims }

/-- R17, R179, R78: QUERY STREAM shows the context as it stands and changes nothing: the lead of a PLAY stream, the held frames
and zero positions of a CAPTURE stream, and the queued descriptors, oldest first. -/
def Obligations.QueryStreamReadsContext : Prop :=
  ∀ (s : State) r rest b (i : StreamNo), s.port.inbound = r :: rest → r.kind = 0x24 → r.payload = [b, (s.stream i).generation] →
    b.toNat = i.val → (s.stream i).state ≠ .closed →
    let st := s.stream i
    let held := st.backlog.countP (fun e => match e.kind with
      | .held _ => true
      | _ => false)
    let flying := match s.inFlight with
      | some m => decide (m.stream = i ∧ m.generation = st.generation) && (match m.kind with
          | some (.held _) => true
          | _ => false)
      | none => false
    exec .queryStream s = .next (s.answered rest r .ok (.queryStream {
      stream := i, state := st.state, generation := st.generation, direction := st.direction, cls := st.cls,
      overlay := st.overlay, width := st.width, depth := st.depth, domain := st.domain, map := st.map,
      leadOrHeld := if st.direction = .play then st.ring.length else held + flying.toNat
      zeroPositions := if st.direction = .play then 0 else st.backlog.length - held
      sounding := st.sounding, gapOpen := st.gapOpen, record := st.record
      descs := st.queue.map fun h => {
        handle := h, tag := (s.desc h).tag, state := (s.desc h).state, span := (s.desc h).span,
        resolved := (s.desc h).resolved } }))

/-! ## The Descriptor Pool -/

/-- R28: the checks of SUBMIT in their order, after the stream number; a refused SUBMIT changes nothing. -/
def Obligations.SubmitCheckOrder : Prop :=
  ∀ (s : State) r rest (b g t0 t1 f0 f1 a b0 b1 b2 b3 : Byte) (i : StreamNo), s.port.inbound = r :: rest → r.kind = 0x30 →
    r.payload = [b, g, t0, t1, f0, f1, a, b0, b1, b2, b3] → b.toNat = i.val →
    let st := s.stream i
    let frames := f0.toNat + 256 * f1.toNat
    let bytes := frames * (st.map.length * st.width)
    refusedInOrder
      [ (st.state = .idle ∨ st.state = .running, .badState),
        (g = st.generation, .stale),
        (1 ≤ frames ∧ frames ≤ 8192 ∧ a.toNat ≤ 1 ∧ bytes ≤ 32768, .badField),
        (st.direction = .play → ∀ h ∈ st.queue.getLast?, (s.desc h).state ≠ .loading, .stillLoading),
        (st.queue.length < st.depth, .queueFull),
        (∃ h, (s.desc h).state = .free, .poolEmpty),
        ((bytes + 511) / 512 ≤ s.freeList.length, .pagesShort) ]
      fun st => exec .submit s = .next (s.answered rest r st (.subject b))

/-- R29 with R55: a SUBMIT that passes R28 completes, and lends the lowest FREE handle and ceil(bytes ÷ 512) pages from the
head of the free list. On an IDLE stream, on a play stream at rest, and on a capture stream with a descriptor still to be
assigned, that is all; on a RUNNING capture stream whose queued descriptors are all fully assigned the new one becomes
eligible within the same request (R32, R34, R36), and retires within it when it stands alone with every position late. The
queue's head is at rest: not yet resolved in every position. At a distance of exactly 2^31
frames the test of R100 is followed, by which neither frame precedes the other (log entry 10): T is then not earlier than the
first open frame, and the later of D and the frame after the last one of the descriptor ahead is D. -/
def Obligations.SubmitLendsDescriptor : Prop :=
  ∀ (s : State) r rest (b t0 t1 f0 f1 a b0 b1 b2 b3 : Byte) (i : StreamNo) (h : Handle), s.port.inbound = r :: rest → r.kind = 0x30 →
    r.payload = [b, (s.stream i).generation, t0, t1, f0, f1, a, b0, b1, b2, b3] → b.toNat = i.val →
    (s.desc h).state = .free → (∀ h', h' < h → (s.desc h').state ≠ .free) →
    let st := s.stream i
    let frames := f0.toNat + 256 * f1.toNat
    let bytes := frames * (st.map.length * st.width)
    let n := (bytes + 511) / 512
    1 ≤ frames → frames ≤ 8192 → a.toNat ≤ 1 → bytes ≤ 32768 → st.queue.length < st.depth → n ≤ s.freeList.length →
    (st.direction = .play → ∀ h ∈ st.queue.getLast?, (s.desc h).state ≠ .loading) → st.state = .idle ∨ st.state = .running →
    let record : Descriptor := { Descriptor.blank with
      state := if st.direction = .play then .loading else .ready
      stream := i, generation := st.generation, direction := st.direction, tag := t1 ++ t0, frames := frames, bytes := bytes
      start := if a = 0 then .immediate else .at (b3 ++ b2 ++ b1 ++ b0)
      pages := s.freeList.take n }
    let lent := fun (d : Descriptor) (st' : Stream) => ({ (s.modDesc h fun _ => d).modStream i (fun _ => st') with
      freeList := s.freeList.drop n, port := s.port.answered rest r .ok (.submit i h n) } : State)
    let queued := { st with queue := st.queue ++ [h] }
    let resting := ∀ k ∈ st.queue.head?, (s.desc k).spent = false
    (∃ t, exec .submit s = .next t ∧
      t = { s with
        port := s.port.answered rest r .ok (.submit i h n), streams := t.streams, descs := t.descs, freeList := t.freeList,
        claims := t.claims } ∧
      s.claims <+: t.claims ∧ s.freeList.drop n <+: t.freeList ∧ (∀ j, j ≠ i → t.stream j = s.stream j) ∧
      (∀ k, k ≠ h → k ∉ st.queue → t.desc k = s.desc k) ∧
      ((t.desc h).stream, (t.desc h).generation, (t.desc h).direction, (t.desc h).tag) =
        (i, st.generation, st.direction, t1 ++ t0) ∧
      ((t.desc h).frames, (t.desc h).bytes, (t.desc h).start, (t.desc h).pages) =
        (frames, bytes, record.start, s.freeList.take n)) ∧
    (st.state = .idle → resting → exec .submit s = .next (lent record queued)) ∧
    (st.state = .running → st.direction = .play → resting → (∀ k ∈ st.queue.head?, (s.desc k).state ≠ .ready) →
      exec .submit s = .next (lent record queued)) ∧
    (∀ front k back, st.state = .running → st.direction = .capture → resting → h ∉ st.queue → st.queue = front ++ k :: back →
      (∀ x ∈ front, (s.desc x).fullyAssigned = true) → (s.desc k).fullyAssigned = false → (s.desc k).state ≠ .ready →
      exec .submit s = .next (lent record queued)) ∧
    (st.state = .running → st.direction = .capture → resting → h ∉ st.queue →
      (∀ x ∈ st.queue, (s.desc x).fullyAssigned = true) →
      let dm := s.domain st.domain
      let D := if dm.delivers then dm.counter - 1 else dm.counter
      let first : FrameNo := match st.queue.getLast? with
        | none => D
        | some k => match (s.desc k).span with
          | none => D
          | some S =>
            let after := S + BitVec.ofNat 32 (s.desc k).frames
            if 1 ≤ (after - D).toNat ∧ (after - D).toNat < 2 ^ 31 then after else D
      let S : FrameNo := if a = 0 then first else b3 ++ b2 ++ b1 ++ b0
      let early := (first - S).toNat
      (early = 0 ∨ 2 ^ 31 ≤ early →
        exec .submit s = .next (lent { record with state := .waiting, span := some S } queued)) ∧
      (1 ≤ early → early < 2 ^ 31 → early < frames → exec .submit s = .next
        (lent { record with state := .waiting, span := some S, assigned := early }
          { queued with backlog := st.backlog ++ (List.range early).map fun k =>
              { handle := h, position := k, frame := S + BitVec.ofNat 32 k, kind := .lateZero } })) ∧
      (1 ≤ early → early < 2 ^ 31 → frames ≤ early →
        let allLate := { record with
          state := .waiting, span := some S, assigned := frames, resolved := frames
          counts := { Counts.zero with late := frames } }
        (st.queue ≠ [] → exec .submit s = .next (lent allLate queued)) ∧
        (st.queue = [] → exec .submit s = .next { lent { allLate with
            state := .retired, outcome := some .late, endFrame := some (S + BitVec.ofNat 32 (frames - 1)), gone := n } st with
          freeList := s.freeList.drop n ++ s.freeList.take n, claims := s.claims ++ [.done h] })))

/-- R31: the checks of PUT in their order, after the stream number; R56: a PUT that passes writes its bytes at the next
descriptor offsets and no other byte, and makes the descriptor READY when the last one is in. An IDLE stream, or a
descriptor that is not complete or not the head, stays as it is; the head of a RUNNING or STOPPING stream becomes eligible
within the request (R32, R33, R35), and retires LATE within it when every position is late. A T more than 2^31 − 1 frames
ahead of the first free frame, exactly 2^31 included, counts as earlier, as the last sentences of R35 and R100 say, against
R100's own definition for exactly 2^31 (log entry 10). -/
def Obligations.PutLoadsBytes : Prop :=
  ∀ (s : State) r rest b g bh data (i : StreamNo), s.port.inbound = r :: rest → r.kind = 0x31 → r.payload = b :: g :: bh :: data →
    1 ≤ data.length → data.length ≤ 1024 → b.toNat = i.val →
    let st := s.stream i
    refusedInOrder
      [ (st.direction = .play ∧ st.state ≠ .closed, .badState), (g = st.generation, .stale), (bh.toNat ≤ 47, .badField),
        (∃ h : Handle, bh.toNat = h.val ∧ h ∈ st.queue ∧ (s.desc h).state = .loading, .notLoading),
        (∀ h : Handle, bh.toNat = h.val → (s.desc h).loaded + data.length ≤ (s.desc h).bytes, .overlength) ]
      (fun st => exec .put s = .next (s.answered rest r st (.subject b))) ∧
    ∀ h : Handle, bh.toNat = h.val → st.direction = .play → st.state ≠ .closed → g = st.generation → h ∈ st.queue →
      (s.desc h).state = .loading → (s.desc h).loaded + data.length ≤ (s.desc h).bytes →
      s.MemoryOk → (s.desc h).pages.Nodup → (s.desc h).pages.length = ((s.desc h).bytes + 511) / 512 →
      let d := s.desc h
      ∃ t, exec .put s = .next t ∧ t.port = s.port.answered rest r .ok (.put i h (d.loaded + data.length)) ∧
        (∀ j (hj : j < data.length), ∃ a, d.addr (d.loaded + j) = some a ∧ t.mem.read a = data[j]) ∧
        (∀ a, (∀ j, j < data.length → d.addr (d.loaded + j) ≠ some a) → t.mem.read a = s.mem.read a) ∧
        ((∀ k ∈ st.queue.head?, (s.desc k).state ≠ .ready ∧ (s.desc k).spent = false) →
          (st.state = .idle ∨ st.queue.head? ≠ some h ∨ d.loaded + data.length < d.bytes) →
          t = { s.modDesc h (fun d => { d with
              loaded := d.loaded + data.length
              state := if d.loaded + data.length = d.bytes then .ready else .loading }) with
            mem := t.mem, port := t.port }) ∧
        ∀ q, st.state = .running ∨ st.state = .stopping → st.queue = h :: q → h ∉ q → d.loaded + data.length = d.bytes →
          d.direction = .play → 1 ≤ d.frames → d.resolved = 0 → d.counts = Counts.zero → d.gone = 0 →
          let first : FrameNo := (s.domain st.domain).counter + BitVec.ofNat 32 st.ring.length
          let S : FrameNo := match d.start with
            | .immediate => first
            | .at T => T
          let early := (first - S).toNat
          (early = 0 ∨ 2 ^ 31 < early → t =
            { s.modDesc h (fun d => { d with loaded := d.bytes, state := .waiting, span := some S }) with
              mem := t.mem, port := t.port }) ∧
          (1 ≤ early → early ≤ 2 ^ 31 → early < d.frames →
            t.desc h = { d with
              loaded := d.bytes, state := .waiting, span := some S, resolved := early, gone := (t.desc h).gone
              counts := { Counts.zero with late := early } } ∧
            t.stream i = st ∧ t.claims = s.claims) ∧
          (1 ≤ early → early ≤ 2 ^ 31 → d.frames ≤ early →
            (t.desc h).state = .retired ∧ (t.desc h).outcome = some .late ∧ (t.desc h).span = some S ∧
            (t.desc h).counts = { Counts.zero with late := d.frames } ∧ h ∉ (t.stream i).queue ∧
            s.claims ++ [Claim.done h] <+: t.claims ∧
            (q = [] → (t.stream i).state = if st.state = .stopping then .idle else .running))

/-! ## The Transfer Engine -/

/-- R68, R82, R83, R74: the idle engine grants the requesting stream that ranks first, OVERRIDE above NORMAL and then by the
rotation list; the in-flight record is filled from the stream's state, and in ROTATING mode the stream goes to the bottom of
the list. While the engine is busy, or no stream requests, no grant happens (log entry 2). -/
def Obligations.GrantFirstRanked : Prop :=
  (∀ (s : State) (i : StreamNo), s.inFlight = none → s.RotationOk → s.requests i = true →
    (∀ j, j ≠ i → s.requests j = true → (s.stream i).cls = .override ∧ (s.stream j).cls = .normal ∨
      (s.stream i).cls = (s.stream j).cls ∧ s.rotation.idxOf i < s.rotation.idxOf j) →
    let rotation := if s.mode = .rotating then s.rotation.erase i ++ [i] else s.rotation
    let mute := decide ((s.stream i).cls = .normal) && s.ovr.latch
    (∀ h q S, (s.stream i).direction = .play → (s.stream i).queue = h :: q → (s.desc h).span = some S →
      exec .grant s = .next { s with
        rotation := rotation
        inFlight := some {
          stream := i, generation := (s.stream i).generation, direction := .play, handle := h,
          position := (s.desc h).resolved, frame := S + BitVec.ofNat 32 (s.desc h).resolved, kind := none, mute := mute,
          void := false } }) ∧
    ∀ e es, (s.stream i).direction = .capture → (s.stream i).backlog = e :: es →
      exec .grant s = .next { s.modStream i (fun st => { st with backlog := es }) with
        rotation := rotation
        inFlight := some {
          stream := i, generation := (s.stream i).generation, direction := .capture, handle := e.handle,
          position := e.position, frame := e.frame, kind := some e.kind, mute := mute, void := false } }) ∧
  ∀ (s : State), s.inFlight.isSome = true ∨ (∀ i, s.requests i = false) → exec .grant s = .next s

/-- R71, R77: what it is for a stream to request a move. -/
def Obligations.MoveRequestConditions : Prop :=
  ∀ (s : State) (i : StreamNo),
    ((s.stream i).direction = .play → (s.requests i = true ↔
      ((s.stream i).state = .running ∨ (s.stream i).state = .stopping) ∧ (∀ m ∈ s.inFlight, m.stream ≠ i) ∧
      ∃ h q S, (s.stream i).queue = h :: q ∧ ((s.desc h).state = .waiting ∨ (s.desc h).state = .active) ∧
        (s.desc h).resolved < (s.desc h).frames ∧ (s.desc h).span = some S ∧
        (S + BitVec.ofNat 32 (s.desc h).resolved - (s.domain (s.stream i).domain).counter).toNat ≤ 3)) ∧
    ((s.stream i).direction = .capture → (s.requests i = true ↔
      (s.stream i).backlog ≠ [] ∧ ∀ m ∈ s.inFlight, m.stream ≠ i))

/-- R69: a void completion empties the in-flight record and changes nothing else. R72, R37, R58, R74: the completion of a play
move that is not void puts FILL in the frames between and the position's samples, or MUTED, at its frame, makes the lead
F − N + 1 and resolves the position. The last position retires the descriptor (R44 to R46) with its pages at the tail of the
free list (R58, R59) and its DONE claim at the tail of the claim list; with nothing behind it a STOPPING stream drains (R12),
and an IMMEDIATE descriptor READY behind it is WAITING from the next frame (R32, R33). That COMPLETION with no move in flight
changes nothing is the model's choice (log entry 2). -/
def Obligations.PlayCompletion : Prop :=
  (∀ (s : State), s.inFlight = none → exec .completion s = .next s) ∧
  (∀ (s : State) m, s.inFlight = some m → m.void = true → exec .completion s = .next { s with inFlight := none }) ∧
  ∀ (s : State) m q, s.inFlight = some m → m.void = false → m.kind = none → (s.stream m.stream).direction = .play →
    (s.stream m.stream).queue = m.handle :: q → m.handle ∉ q → (s.desc m.handle).direction = .play →
    (s.desc m.handle).state = .waiting ∨ (s.desc m.handle).state = .active →
    m.position = (s.desc m.handle).resolved → (s.desc m.handle).resolved < (s.desc m.handle).frames →
    let st := s.stream m.stream
    let d := s.desc m.handle
    let n := (m.frame - (s.domain st.domain).counter).toNat
    n ≤ 3 → st.ring.length ≤ n →
    let entry : RingEntry := if m.mute then .muted
      else .sample ((List.range st.map.length).map fun k => readSample s.mem d st.width m.position k)
    let counts : Counts := if m.mute then { d.counts with muted := d.counts.muted + 1 }
      else { d.counts with sounded := d.counts.sounded + 1 }
    ∃ t, exec .completion s = .next t ∧ t.inFlight = none ∧
      (t.stream m.stream).ring = st.ring ++ List.replicate (n - st.ring.length) RingEntry.fill ++ [entry] ∧
      (∀ j, j ≠ m.stream → t.stream j = s.stream j) ∧
      t = { s with
        inFlight := none, streams := t.streams, descs := t.descs, freeList := t.freeList, claims := t.claims } ∧
      (d.resolved + 1 < d.frames →
        let gone := max d.gone ((d.resolved + 1) * (d.bytes / d.frames) / 512)
        t.stream m.stream = { st with ring := (t.stream m.stream).ring } ∧
        (∀ h, t.desc h = if h = m.handle then
          { d with state := .active, resolved := d.resolved + 1, counts := counts, gone := gone } else s.desc h) ∧
        t.freeList = s.freeList ++ (d.pages.take gone).drop d.gone ∧ t.claims = s.claims) ∧
      (d.resolved + 1 = d.frames →
        let freed := s.freeList ++ d.pages.drop d.gone
        let done := s.claims ++ [Claim.done m.handle]
        let left := { st with ring := (t.stream m.stream).ring, queue := q }
        t.desc m.handle = { d with
          state := .retired, resolved := d.frames, gone := max d.gone d.pages.length, counts := { counts with unreached := 0 }
          outcome := some (if counts.late = d.frames then .late else .complete)
          endFrame := d.span.map fun S => S + BitVec.ofNat 32 (d.frames - 1) } ∧
        (∀ h, h ≠ m.handle → h ∉ q → t.desc h = s.desc h) ∧
        m.handle ∉ (t.stream m.stream).queue ∧ freed <+: t.freeList ∧ done <+: t.claims ∧
        (q = [] → st.state ≠ .stopping → t.stream m.stream = left ∧ t.freeList = freed ∧ t.claims = done) ∧
        (q = [] → st.state = .stopping → t.freeList = freed ∧
          t.stream m.stream = { left with state := .idle, gapOpen := false, record := { st.record with drained := true } } ∧
          t.claims = if Claim.streamEvent m.stream ∈ s.claims then done else done ++ [.streamEvent m.stream]) ∧
        ∀ h' q', q = h' :: q' → st.state = .running ∨ st.state = .stopping → (s.desc h').state = .ready →
          (s.desc h').start = .immediate → 1 ≤ (s.desc h').frames → (s.desc h').resolved = 0 →
          t.desc h' = { s.desc h' with state := .waiting, span := some (m.frame + 1) } ∧
          (∀ h ∈ q', h ≠ h' → t.desc h = s.desc h) ∧ t.stream m.stream = left ∧ t.freeList = freed ∧ t.claims = done)

/-- R77, R42, R74, R60: the completion of a capture move that is not void writes the held samples, or zeros, at the position's
offsets and no other byte, counts the position by its entry's kind, and hands a filled page to a DATA claim; before the
last position nothing else changes, in a queue in which none waits to become eligible. R43, R61: the last position retires
the descriptor; a last page written in part passes to a DATA claim of the run's length, ahead of the DONE claim. -/
def Obligations.CaptureCompletion : Prop :=
  ∀ (s : State) m k q, s.inFlight = some m → m.void = false → m.kind = some k → (s.stream m.stream).direction = .capture →
    (s.stream m.stream).queue = m.handle :: q →
    (s.desc m.handle).state = .waiting ∨ (s.desc m.handle).state = .active →
    m.position = (s.desc m.handle).resolved → (s.desc m.handle).resolved < (s.desc m.handle).frames → s.MemoryOk →
    let st := s.stream m.stream
    let d := s.desc m.handle
    let size := d.bytes / d.frames
    size = st.map.length * st.width → d.pages.Nodup → d.pages.length = (d.bytes + 511) / 512 →
    (∀ xs, k = .held xs → xs.length = st.map.length) →
    let bytes : List Byte := match k with
      | .held xs => if m.mute then List.replicate size 0 else xs.flatMap (sampleBytes st.width)
      | _ => List.replicate size 0
    let counts : Counts := match k with
      | .held _ => { d.counts with stored := d.counts.stored + 1 }
      | .lostZero => { d.counts with lost := d.counts.lost + 1 }
      | .lateZero => { d.counts with late := d.counts.late + 1 }
    let written := m.position * size + size
    let data := fun n count p => Claim.data {
      stream := d.stream, generation := d.generation, handle := m.handle, tag := d.tag, offset := 512 * n, count := count,
      page := p }
    ∃ t, exec .completion s = .next t ∧
      (∀ j (hj : j < bytes.length), ∃ a, d.addr (m.position * size + j) = some a ∧ t.mem.read a = bytes[j]) ∧
      (∀ a, (∀ j, j < size → d.addr (m.position * size + j) ≠ some a) → t.mem.read a = s.mem.read a) ∧
      (d.resolved + 1 < d.frames → s.nextEligible m.stream = none →
        (written / 512 ≤ d.gone → t = { s.modDesc m.handle (fun d => { d with
            resolved := d.resolved + 1, written := written, counts := counts }) with
          inFlight := none, mem := t.mem }) ∧
        ∀ p, d.gone < written / 512 → d.pages[d.gone]? = some p → t = { s.modDesc m.handle (fun d => { d with
            resolved := d.resolved + 1, written := written, counts := counts, gone := d.gone + 1 }) with
          inFlight := none, mem := t.mem, claims := s.claims ++ [data d.gone 512 p] }) ∧
      (d.resolved + 1 = d.frames → d.direction = .capture → m.handle ∉ q → d.bytes = d.frames * size → 1 ≤ size →
        size ≤ 512 → d.gone = m.position * size / 512 →
        let full := if d.gone < d.bytes / 512 then (d.pages[d.gone]?).toList.map (data d.gone 512) else []
        let part := if d.bytes % 512 = 0 then [] else (d.pages[d.bytes / 512]?).toList.map (data (d.bytes / 512) (d.bytes % 512))
        s.claims ++ full ++ part ++ [Claim.done m.handle] <+: t.claims ∧
        t.desc m.handle = { d with
          state := .retired, resolved := d.frames, written := d.bytes, gone := d.pages.length
          counts := { counts with unreached := 0 }
          outcome := some (if counts.late = d.frames then .late else .complete)
          endFrame := d.span.map fun S => S + BitVec.ofNat 32 (d.frames - 1) } ∧
        m.handle ∉ (t.stream m.stream).queue ∧ (∀ j, j ≠ m.stream → t.stream j = s.stream j) ∧
        (∀ h, h ≠ m.handle → h ∉ q → t.desc h = s.desc h) ∧
        t = { s with
          inFlight := none, mem := t.mem, streams := t.streams, descs := t.descs, freeList := t.freeList,
          claims := t.claims } ∧
        (q = [] → t.freeList = s.freeList ∧ (st.state ≠ .stopping →
          t.stream m.stream = { st with queue := [] } ∧ t.claims = s.claims ++ full ++ part ++ [Claim.done m.handle]) ∧
          (st.state = .stopping → t.stream m.stream = { st with
            queue := [], state := .idle, gapOpen := false, record := { st.record with drained := true } })))

/-- R84: SET ARBITRATION records the mode and makes the rotation list ascending, whatever they were; another mode is
BAD_FIELD. -/
def Obligations.SetArbitrationResetsList : Prop :=
  ∀ (s : State) r rest b, s.port.inbound = r :: rest → r.kind = 0x41 → r.payload = [b] →
    (b = 0 → exec .setArbitration s = .next { s with
      mode := .fixed, rotation := List.finRange 12, port := s.port.answered rest r .ok .nothing }) ∧
    (b = 1 → exec .setArbitration s = .next { s with
      mode := .rotating, rotation := List.finRange 12, port := s.port.answered rest r .ok .nothing }) ∧
    (2 ≤ b.toNat → exec .setArbitration s = .next (s.answered rest r .badField .nothing))

/-! ## Frame events -/

/-- R112: a sample of `w` bytes stands in the top 8w bits of its slot, its last byte topmost, with zero below; R113: the same
bits of a receive slot, and no others, are the bytes of the sample taken from it. -/
def Obligations.SamplePacking : Prop :=
  ∀ W w, w ∈ [2, 3, 4] → 8 * w ≤ W → W ≤ 32 →
    (∀ bs : List Byte, bs.length = w →
      (∀ k (hk : k < bs.length) j, j < 8 →
        (packSlot W w (sampleOfBytes bs)).getLsbD (W - 8 * w + 8 * k + j) = bs[k].getLsbD j) ∧
      ∀ j, j < W - 8 * w ∨ W ≤ j → (packSlot W w (sampleOfBytes bs)).getLsbD j = false) ∧
    ∀ (x : Word32), (∀ j, W ≤ j → x.getLsbD j = false) →
      ∀ k j, k < w → j < 8 →
        ((sampleBytes w (unpackSlot W w x)).getD k 0).getLsbD j = x.getLsbD (W - 8 * w + 8 * k + j)

/-- R110, R114, R116, R117: the frame that an enabled lane composes at a frame event: each slot from the overlay owner's entry,
else the base owner's, else silence, and with the marker enabled bit 0 of slot 0 from the marker word as taken up; the event
that locks the domain included (R92, R95). -/
def Obligations.SlotComposition : Prop :=
  ∀ (s : State) c d rx l, s.makesFrameEvent c d rx → (s.lane l).domain = d → (s.lane l).txEnable = true →
    (s.domain d).slots ∈ [2, 4, 8] →
    ∃ t xs, exec c s = .next t ∧ (t.lane l).txFrame = some xs ∧ xs.length = (s.domain d).slots ∧
      ∀ (k : SlotNo) x, xs[k.val]? = some x →
        let N := (s.domain d).counter.toNat
        let word := if N % 32 = 0 then (s.lane l).staged.getD (s.lane l).current else (s.lane l).current
        ((s.lane l).txMarker = false ∨ k ≠ 0 → s.SlotFrom (s.domain d).width l k x) ∧
        ((s.lane l).txMarker = true → k = 0 → ∃ y, s.SlotFrom (s.domain d).width l k y ∧
          ∀ j, x.getLsbD j = if j = 0 then word.getLsbD (31 - N % 32) else y.getLsbD j)

/-- R73, R38, R44, R12, R18, R19, R21, R22 and R75: what a frame event, the one that locks the domain included (R92,
R95), does to a play stream of its domain: a frame in the ring goes out and ends a gap; a due position with nothing in the ring is skipped or late, its move void, and the gap over,
and the descriptor's last position retires it within the event; a frame before the span of a WAITING head ends a gap; a
frame with nothing queued, or a LOADING head, is a gap frame of a sounding stream; an IDLE stream's ring drains. -/
def Obligations.PlayStreamAtFrameEvent : Prop :=
  ∀ (s : State) c d rx (i : StreamNo), s.PlacesOk → s.makesFrameEvent c d rx → (s.stream i).direction = .play →
    (s.stream i).domain = d → (s.stream i).state ≠ .closed →
    let st := s.stream i
    let N := (s.domain d).counter
    let moving := st.state = .running ∨ st.state = .stopping
    let gapEnded := { st with
      gapOpen := false, record := if st.gapOpen then { st.record with gapEnd := some N } else st.record }
    ∃ t, exec c s = .next t ∧
      (st.state = .idle → t.stream i = { st with ring := st.ring.tail } ∧ ∀ h ∈ st.queue, t.desc h = s.desc h) ∧
      (∀ e es, moving → st.ring = e :: es →
        t.stream i = { gapEnded with ring := es, sounding := st.sounding || decide (e ≠ .fill) } ∧
        (st.gapOpen = true → Claim.streamEvent i ∈ t.claims) ∧ ∀ h ∈ st.queue, t.desc h = s.desc h) ∧
      (∀ h q S, moving → st.ring = [] → st.queue = h :: q →
        (s.desc h).state = .waiting ∨ (s.desc h).state = .active → (s.desc h).span = some S →
        S + BitVec.ofNat 32 (s.desc h).resolved = N → (s.desc h).resolved < (s.desc h).frames →
        let counts := if (s.desc h).state = .active then
          { (s.desc h).counts with skipped := (s.desc h).counts.skipped + 1 } else
          { (s.desc h).counts with late := (s.desc h).counts.late + 1 }
        (∀ m, s.inFlight = some m → m.stream = i → m.handle = h → m.position = (s.desc h).resolved →
          t.inFlight = some { m with void := true }) ∧
        ((s.desc h).resolved + 1 < (s.desc h).frames →
          t.stream i = gapEnded ∧ (st.gapOpen = true → Claim.streamEvent i ∈ t.claims) ∧
          t.desc h = { s.desc h with resolved := (s.desc h).resolved + 1, counts := counts, gone := (t.desc h).gone }) ∧
        ((s.desc h).resolved + 1 = (s.desc h).frames →
          t.desc h = { s.desc h with
            state := .retired, resolved := (s.desc h).frames, counts := { counts with unreached := 0 }
            gone := (t.desc h).gone
            outcome := some (if counts.late = (s.desc h).frames then .late else .complete)
            endFrame := some (S + BitVec.ofNat 32 ((s.desc h).frames - 1)) } ∧
          h ∉ (t.stream i).queue ∧ Claim.done h ∈ t.claims ∧ (t.stream i).ring = [] ∧ (t.stream i).gapOpen = false ∧
          (q = [] → st.state = .running → t.stream i = { gapEnded with queue := [] }) ∧
          (q = [] → st.state = .stopping → Claim.streamEvent i ∈ t.claims ∧ t.stream i = { st with
            queue := [], state := .idle, gapOpen := false, record := { st.record with drained := true } }))) ∧
      (∀ h q S, moving → st.ring = [] → st.queue = h :: q → (s.desc h).state = .waiting → (s.desc h).span = some S →
        1 ≤ (S - N).toNat → (S - N).toNat < 2 ^ 31 → S + BitVec.ofNat 32 (s.desc h).resolved ≠ N →
        t.stream i = gapEnded ∧ (st.gapOpen = true → Claim.streamEvent i ∈ t.claims) ∧ t.desc h = s.desc h) ∧
      (moving → st.ring = [] → (∀ h ∈ st.queue.head?, (s.desc h).state = .loading) →
        (st.sounding = true →
          t.stream i = { st with
            gapOpen := true
            record := if st.gapOpen then { st.record with gapFrames := bump st.record.gapFrames } else
              { st.record with gapStart := some N, gapEnd := none, gapFrames := bump st.record.gapFrames } } ∧
          (st.gapOpen = false → Claim.streamEvent i ∈ t.claims)) ∧
        (st.sounding = false → t.stream i = st) ∧ ∀ h ∈ st.queue, t.desc h = s.desc h)

/-- R117: a staged marker word is taken up at a frame event that commits a frame N with N mod 32 = 0, whatever the lane's
enables, the event that locks the domain included (R92, R95); and between such events and full resets the current word does not change. -/
def Obligations.MarkerWordTakenUp : Prop :=
  (∀ (s : State) c d rx l, s.makesFrameEvent c d rx → (s.lane l).domain = d →
    ∃ t, exec c s = .next t ∧
      (∀ w, (s.domain d).counter.toNat % 32 = 0 → (s.lane l).staged = some w →
        (t.lane l).current = w ∧ (t.lane l).staged = none) ∧
      ((s.domain d).counter.toNat % 32 ≠ 0 ∨ (s.lane l).staged = none →
        (t.lane l).current = (s.lane l).current ∧ (t.lane l).staged = (s.lane l).staged)) ∧
  ∀ c (s t : State) l, exec c s = .next t → (t.lane l).current ≠ (s.lane l).current →
    c = .resetFull ∨ (∃ lv b, c = .pinReset lv b) ∨
      (s.domain (s.lane l).domain).counter.toNat % 32 = 0 ∧
        ((∃ bits duration rx, c = .frameClosed (s.lane l).domain bits duration rx) ∨
          ∃ rx, c = .generatorBoundary (s.lane l).domain rx)

/-- R119: at an event that delivers frame F a gathering lane with both receive enables set collects the marker bit: a block
starts at F mod 32 = 0, goes on with the frame it expects, and is given up at any other; a complete block's word is judged
against the last reported one. -/
def Obligations.ReceivedMarkerAssembled : Prop :=
  ∀ (s : State) c d rx l, s.takesFrameEvent c d rx → (s.domain d).delivers = true → (s.domain d).width = 32 →
    (s.lane l).domain = d → (s.lane l).rxEnable = true → (s.lane l).rxMarker = true → (s.lane l).gathering = true →
    let F := (s.domain d).counter - 1
    let r := F.toNat % 32
    let block : BitVec 27 := BitVec.ofNat 27 (F.toNat / 32)
    let bit := (rx.get l).getLsbD 224
    let placed : Word32 := if bit then 1 <<< (31 - r) else 0
    ∃ t, exec c s = .next t ∧
      (r = 0 → (t.lane l).assembly = some { block := block, count := 1, word := placed } ∧
        (t.lane l).lastReported = (s.lane l).lastReported ∧ (t.lane l).eventWord = (s.lane l).eventWord) ∧
      (∀ a, r ≠ 0 → (s.lane l).assembly = some a → a.block = block → a.count = r → r < 31 →
        (t.lane l).assembly = some { block := block, count := r + 1, word := a.word ||| placed } ∧
        (t.lane l).lastReported = (s.lane l).lastReported ∧ (t.lane l).eventWord = (s.lane l).eventWord) ∧
      (r ≠ 0 → (∀ a, (s.lane l).assembly = some a → a.block ≠ block ∨ a.count ≠ r) →
        (t.lane l).assembly = none ∧ (t.lane l).lastReported = (s.lane l).lastReported ∧
        (t.lane l).eventWord = (s.lane l).eventWord) ∧
      (∀ a, (s.lane l).assembly = some a → a.block = block → a.count = 31 → r = 31 →
        (t.lane l).assembly = none ∧
        ((s.lane l).lastReported = some (a.word ||| placed) →
          (t.lane l).lastReported = (s.lane l).lastReported ∧ (t.lane l).eventWord = (s.lane l).eventWord) ∧
        ((s.lane l).lastReported ≠ some (a.word ||| placed) →
          (t.lane l).lastReported = some (a.word ||| placed) ∧ (t.lane l).eventWord = some (a.word ||| placed) ∧
          Claim.marker l ∈ t.claims))

/-- R20, R40, R41, R113, R18, R78, R79: what an event that delivers frame F does to a capture stream. An IDLE one is offered
no frame and stays, with its descriptors (R3). Of a RUNNING or STOPPING one the positions of its oldest open descriptor that F
has passed over join the backlog as lost zero positions; F is taken as a held frame for its own position, where a fifth held
frame turns the oldest into a lost zero position; a descriptor assigned to its end lets the next become eligible, and one that
F lies beyond lets F be offered to the next (R32, R34). A frame before a WAITING descriptor's span is a wait frame; a frame for
which none waits is a gap frame of a sounding stream. Stated, where samples are taken, of lanes that gathered the frame. -/
def Obligations.DeliveredFrameAssigned : Prop :=
  ∀ (s : State) c d rx (i : StreamNo), s.PlacesOk → s.takesFrameEvent c d rx → (s.domain d).delivers = true →
    (s.stream i).direction = .capture → (s.stream i).domain = d →
    let st := s.stream i
    let F := (s.domain d).counter - 1
    let W := (s.domain d).width
    let gathered := ∀ e ∈ st.map, (s.lane e.1).gathering = true
    let eligible := fun h => (s.desc h).state = .waiting ∨ (s.desc h).state = .active
    let heldFrame := fun (h : Handle) p => ({
      handle := h, position := p, frame := F
      kind := .held (st.map.map fun e => unpackSlot W st.width (rxSlot rx W e.1 e.2.val)) } : BacklogEntry)
    let passedOver := fun (h : Handle) (S : FrameNo) p n => (List.range n).map fun j => ({
      handle := h, position := p + j, frame := S + BitVec.ofNat 32 (p + j), kind := .lostZero } : BacklogEntry)
    let gapEnded := { st with
      gapOpen := false, record := if st.gapOpen then { st.record with gapEnd := some F } else st.record }
    let inGap := if st.sounding then { st with
      gapOpen := true
      record := if st.gapOpen then { st.record with gapFrames := bump st.record.gapFrames } else
        { st.record with gapStart := some F, gapEnd := none, gapFrames := bump st.record.gapFrames } } else st
    ∃ t, exec c s = .next t ∧
      (st.state = .idle → t.stream i = st ∧ ∀ h ∈ st.queue, t.desc h = s.desc h) ∧
      (st.state = .running ∨ st.state = .stopping →
        (∀ h q S, st.queue = h :: q → eligible h → (s.desc h).span = some S → gathered → s.heldCount i ≤ 4 →
          (s.desc h).resolved ≤ (s.desc h).assigned → (s.desc h).assigned < (s.desc h).frames →
          let p := (s.desc h).assigned
          let n := (F - (S + BitVec.ofNat 32 p)).toNat
          n < 2 ^ 31 → p + n < (s.desc h).frames →
          let joined := st.backlog ++ passedOver h S p n ++ [heldFrame h (p + n)]
          t.desc h = { s.desc h with state := .active, assigned := p + n + 1 } ∧
          t.stream i = { gapEnded with sounding := true, backlog := (t.stream i).backlog } ∧
          (st.gapOpen = true → Claim.streamEvent i ∈ t.claims) ∧
          (s.heldCount i < 4 → joined <+: (t.stream i).backlog) ∧
          (∀ front e back, s.heldCount i = 4 → joined = front ++ e :: back → (∀ x ∈ front, x.kind.isHeld = false) →
            e.kind.isHeld = true → front ++ { e with kind := .lostZero } :: back <+: (t.stream i).backlog) ∧
          (p + n + 1 < (s.desc h).frames → (t.stream i).backlog.length = joined.length ∧ ∀ k ∈ q, t.desc k = s.desc k) ∧
          ∀ h' q', p + n + 1 = (s.desc h).frames → q = h' :: q' → (s.desc h').state = .ready →
            (s.desc h').start = .immediate → 1 ≤ (s.desc h').frames →
            t.desc h' = { s.desc h' with state := .waiting, span := some (F + 1), assigned := 0 } ∧
            (t.stream i).backlog.length = joined.length) ∧
        (∀ h q S, st.queue = h :: q → eligible h → (s.desc h).span = some S →
          (s.desc h).resolved ≤ (s.desc h).assigned → (s.desc h).assigned < (s.desc h).frames →
          let p := (s.desc h).assigned
          let n := (F - (S + BitVec.ofNat 32 p)).toNat
          p + n < 2 ^ 31 → (s.desc h).frames ≤ p + n →
          let passed := st.backlog ++ passedOver h S p ((s.desc h).frames - p)
          t.desc h = { s.desc h with assigned := (s.desc h).frames } ∧
          (q = [] → t.stream i = { inGap with backlog := passed } ∧
            (st.sounding = true → st.gapOpen = false → Claim.streamEvent i ∈ t.claims)) ∧
          ∀ h' q', q = h' :: q' → (s.desc h').state = .ready → (s.desc h').start = .immediate → 2 ≤ (s.desc h').frames →
            gathered → s.heldCount i < 4 →
            t.desc h' = { s.desc h' with state := .active, span := some F, assigned := 1 } ∧
            t.stream i = { gapEnded with sounding := true, backlog := passed ++ [heldFrame h' 0] }) ∧
        (∀ h q S, st.queue = h :: q → (s.desc h).state = .waiting → (s.desc h).span = some S → (s.desc h).assigned = 0 →
          1 ≤ (s.desc h).frames → 1 ≤ (S - F).toNat → (S - F).toNat < 2 ^ 31 →
          t.stream i = gapEnded ∧ (st.gapOpen = true → Claim.streamEvent i ∈ t.claims) ∧ ∀ k ∈ st.queue, t.desc k = s.desc k) ∧
        ((∀ h ∈ st.queue, (s.desc h).fullyAssigned = true ∧
            ∀ S, (s.desc h).span = some S → (S - F).toNat = 0 ∨ 2 ^ 31 ≤ (S - F).toNat) →
          t.stream i = inGap ∧ (st.sounding = true → st.gapOpen = false → Claim.streamEvent i ∈ t.claims) ∧
          ∀ h ∈ st.queue, t.desc h = s.desc h))

/-! ## The Override Unit -/

/-- R124, R125, R127, R74: an assertion edge sets the latch, marks the NORMAL move in flight and counts; R126, R127: a
deassertion edge leaves the latch; R129: CLEAR OVERRIDE is refused while the line is asserted and clears the latch
otherwise. An edge to the level that stands is no edge (log entry 21). -/
def Obligations.OverrideLine : Prop :=
  (∀ (s : State), s.ovr.level = .deasserted → exec .assertionEdge s = .next { s with
    inFlight := s.inFlight.map fun m => { m with mute := m.mute || decide ((s.stream m.stream).cls = .normal) }
    ovr := { level := .asserted, latch := true, recLevel := .asserted, edges := bump s.ovr.edges, recLatch := true }
    claims := if Claim.overrideEvent ∈ s.claims then s.claims else s.claims ++ [.overrideEvent] }) ∧
  (∀ (s : State), s.ovr.level = .asserted → exec .deassertionEdge s = .next { s with
    ovr := { level := .deasserted, latch := s.ovr.latch, recLevel := .deasserted, edges := bump s.ovr.edges,
             recLatch := s.ovr.latch }
    claims := if Claim.overrideEvent ∈ s.claims then s.claims else s.claims ++ [.overrideEvent] }) ∧
  (∀ (s : State), s.ovr.level = .asserted → exec .assertionEdge s = .next s) ∧
  (∀ (s : State), s.ovr.level = .deasserted → exec .deassertionEdge s = .next s) ∧
  ∀ (s : State) r rest, s.port.inbound = r :: rest → r.kind = 0x40 → r.payload = [] →
    (s.ovr.level = .asserted → exec .clearOverride s = .next (s.answered rest r .lineActive .nothing)) ∧
    (s.ovr.level = .deasserted → exec .clearOverride s = .next { s with
      ovr := { s.ovr with latch := false, recLatch := false }, port := s.port.answered rest r .ok (.latch false) })

/-- R125, R126, R129, R132, R133: only CLEAR OVERRIDE with the line deasserted and a full reset clear the override latch, and
only an assertion edge and a full reset that ends with the line asserted set it. -/
def Obligations.LatchChangesOnlyByRule : Prop :=
  ∀ c (s t : State), exec c s = .next t →
    (s.ovr.latch = true → t.ovr.latch = false →
      c = .clearOverride ∧ s.ovr.level = .deasserted ∨ c = .resetFull ∨ ∃ b, c = .pinReset .deasserted b) ∧
    (s.ovr.latch = false → t.ovr.latch = true →
      c = .assertionEdge ∨ c = .resetFull ∧ s.ovr.level = .asserted ∨ ∃ b, c = .pinReset .asserted b)

/-! ## Reports and the claim list -/

/-- R139 with R140, R141, R142, R23, R103, R121, R128, R137: while fewer than 16 report entries stand, a conversion makes the
head claim a report entry at the tail of the outbound queue, built from the record as it stands, and empties the record as
its block lays down; otherwise no conversion happens (log entry 2). -/
def Obligations.ConversionOfHeadClaim : Prop :=
  (∀ (s : State), s.claims = [] ∨ 16 ≤ s.port.outbound.countP (fun e => !e.isReply) → exec .conversion s = .next s) ∧
  ∀ (s : State) c rest, s.claims = c :: rest → s.port.outbound.countP (fun e => !e.isReply) < 16 →
    let after := fun (u : State) (x : Report) => ({ u with
      claims := rest
      port := { s.port with
        lastOut := nextSeq s.port.lastOut
        outbound := s.port.outbound ++ [{
          seq := nextSeq s.port.lastOut, body := .report x, sent := false, carried := false }] } } : State)
    (∀ h o, c = .done h → (s.desc h).outcome = some o → exec .conversion s = .next (after
      (s.modDesc h fun _ => Descriptor.blank)
      (.done { stream := (s.desc h).stream, generation := (s.desc h).generation, direction := (s.desc h).direction,
               handle := h, tag := (s.desc h).tag, outcome := o, span := (s.desc h).span,
               endFrame := (s.desc h).endFrame, counts := (s.desc h).counts }))) ∧
    (∀ x, c = .data x → exec .conversion s = .next (after s (.data x))) ∧
    (∀ i, c = .streamEvent i → exec .conversion s = .next (after
      (s.modStream i fun st => { st with
        record := { gapStart := none, gapEnd := none, gapFrames := 0, drained := false } })
      (.streamEvent i (s.stream i).generation (s.stream i).record))) ∧
    (∀ i g x, c = .streamDetached i g x → exec .conversion s = .next (after s (.streamEvent i g x))) ∧
    (∀ d, c = .domainEvent d → exec .conversion s = .next (after
      (s.modDomain d fun dm => { dm with record := { dm.record with transitions := 0 } })
      (.domainEvent d (s.domain d).record))) ∧
    (c = .overrideEvent → exec .conversion s = .next (after { s with ovr := { s.ovr with edges := 0 } }
      (.overrideEvent s.ovr.recLevel s.ovr.edges s.ovr.recLatch))) ∧
    ∀ l w, c = .marker l → (s.lane l).eventWord = some w → exec .conversion s = .next (after
      (s.modLane l fun ln => { ln with eventWord := none }) (.marker l w))

/-- R134, R139, R16: a claim keeps its place until it is converted or discarded by a reset. A CLOSE that passes (R1, R15) detaches
the STREAM EVENT claim of the stream that its request names, in its place; any other taking of CLOSE leaves the list as it is, a
conversion takes the head or nothing, and every other command only appends. -/
def Obligations.ClaimsKeepTheirPlaces : Prop :=
  ∀ c (s t : State), exec c s = .next t → c ≠ .resetFull → c ≠ .resetStreams → (∀ lv b, c ≠ .pinReset lv b) →
    (c ≠ .conversion → c ≠ .closeStream → s.claims <+: t.claims) ∧
    (c = .closeStream →
      let closes := fun i : StreamNo => ∃ r rest b, s.port.inbound = r :: rest ∧ r.kind = 0x21 ∧
        r.payload = [b, (s.stream i).generation] ∧ b.toNat = i.val ∧ (s.stream i).state = .idle
      (∀ i, closes i → s.claims.map (fun x =>
        if x = Claim.streamEvent i then Claim.streamDetached i (s.stream i).generation (s.stream i).record else x) <+: t.claims) ∧
      ((∀ i, ¬ closes i) → t.claims = s.claims)) ∧
    (c = .conversion → t.claims = s.claims ∨ t.claims = s.claims.tail)

/-- R143, R163, R162: an entry leaves the outbound queue only at the end of an exchange or at a full reset; every other command
leaves the entries as they stand, and appends at most one. -/
def Obligations.OutboundEntriesStay : Prop :=
  ∀ c (s t : State), exec c s = .next t → c ≠ .resetFull → (∀ lv b, c ≠ .pinReset lv b) → (∀ sdi, c ≠ .endOfExchange sdi) →
    t.port.outbound = s.port.outbound ∧ t.port.lastOut = s.port.lastOut ∨
    ∃ b, t.port.outbound = s.port.outbound ++ [{ seq := nextSeq s.port.lastOut, body := b, sent := false, carried := false }] ∧
      t.port.lastOut = nextSeq s.port.lastOut

/-! ## What every step keeps -/

/-- The buffer memory keeps its canonical form (the form itself is the model's, log entry 6). -/
def Obligations.StepKeepsMemoryForm : Prop :=
  ∀ s t : State, s.MemoryOk → step s = .next t → t.MemoryOk

/-- The Exchange Port keeps its promises: capacities (R138, R159), numbers in order (R157, R162), sending in queue order, the
due entry SENT (R164), the frame in progress carrying the entry at the send cursor (R152), one LAST flag at most (R158). -/
def Obligations.StepKeepsPort : Prop :=
  ∀ s t : State, s.PortOk → step s = .next t → t.PortOk

/-- R83: the rotation list holds each stream once, ascending in FIXED mode; R125, R127, R129, R132: the override record shows
the unit's own level and latch, and an asserted line has set the latch. -/
def Obligations.StepKeepsArbiterAndOverride : Prop :=
  ∀ s t : State, s.RotationOk → s.OverrideOk → step s = .next t → t.RotationOk ∧ t.OverrideOk

/-- Tables 5-1, 5-2 and 6-1: the domains keep legal states, formats and measurements, and the lanes send and gather only while
enabled on a LOCKED domain, with markers only on 32-bit slots. -/
def Obligations.StepKeepsDomainsAndLanes : Prop :=
  ∀ s t : State, s.DomainsOk → s.LanesOk → step s = .next t → t.DomainsOk ∧ t.LanesOk

/-- R134, R136, R142, R23, R16: a coalescing claim stands once, and exactly while its record holds something to report: an
edge, a transition, a received word, and for an attached STREAM EVENT a gap start, a gap end or the drained flag. -/
def Obligations.StepKeepsClaims : Prop :=
  ∀ s t : State, s.ClaimsOk → step s = .next t → t.ClaimsOk

/-- R4, R5: the ownership entries are exactly the positions of the open streams, and every open stream still fits the lanes and
the domain that OPEN checked it against. -/
def Obligations.StepKeepsOwners : Prop :=
  ∀ s t : State, s.OwnersOk → step s = .next t → t.OwnersOk

/-- R53: each of the 256 pages is at every moment in exactly one of the four holdings, and a descriptor that stands in no queue
holds none. -/
def Obligations.PagesStandInOneHolding : Prop :=
  ∀ s t : State, s.PoolsOk → step s = .next t →
    t.PagesOk ∧ ∀ h, (∀ i, h ∉ (t.stream i).queue) → (t.desc h).heldPages = []

/-- Chapters 1 to 4 together: descriptors in one place (R26), their accounts (R46), queues at rest (R30, R32), the backlog in
position order (R42, R77, R78), the move in flight, pages (R53), the lead (R70) and data ahead of accounts (R145). -/
def Obligations.StepKeepsPools : Prop :=
  ∀ s t : State, s.PoolsOk → step s = .next t → t.PoolsOk

/-- Every invariant above holds right after reset. -/
def Obligations.InvariantsHoldAtReset : Prop :=
  State.reset.MemoryOk ∧ State.reset.PortOk ∧ State.reset.RotationOk ∧ State.reset.OverrideOk ∧ State.reset.DomainsOk ∧
    State.reset.LanesOk ∧ State.reset.ClaimsOk ∧ State.reset.OwnersOk ∧ State.reset.PoolsOk
end

