-- ==== Sys2Proof/Laws/State.lean ====
section
/-! SUPPORT. One lemma per field per update: what each operation of Machine/Ops.lean leaves as it is, and what it
writes. -/

namespace Sys2Proof.Machine

/-! ## Reading what was written -/

theorem vector_get_set_same {α : Type} {n : Nat} (v : Vector α n) (i : Fin n) (x : α) :
    (v.set i.val x i.isLt).get i = x := by
  change (v.set i.val x i.isLt)[i.val] = x
  simp

theorem vector_get_set_ne {α : Type} {n : Nat} (v : Vector α n) {i j : Fin n} (x : α) (h : j ≠ i) :
    (v.set i.val x i.isLt).get j = v.get j := by
  have : i.val ≠ j.val := fun e => h (Fin.ext e.symm)
  change (v.set i.val x i.isLt)[j.val] = v[j.val]
  simp [this]

@[simp] theorem vector_get_ofFn {α : Type} {n : Nat} (f : Fin n → α) (i : Fin n) : (Vector.ofFn f).get i = f i := by
  change (Vector.ofFn f)[i.val] = f i
  simp

@[simp] theorem vector_get_replicate {α : Type} {n : Nat} (x : α) (i : Fin n) : (Vector.replicate n x).get i = x := by
  change (Vector.replicate n x)[i.val] = x
  simp

@[simp] theorem State.stream_modStream_same (s : State) (i : StreamNo) (f : Stream → Stream) : (s.modStream i f).stream i = f (s.stream i) :=
  vector_get_set_same s.streams i _

theorem State.stream_modStream_ne (s : State) {i j : StreamNo} (f : Stream → Stream) (h : j ≠ i) : (s.modStream i f).stream j = s.stream j :=
  vector_get_set_ne s.streams _ h

theorem State.stream_modStream (s : State) (i j : StreamNo) (f : Stream → Stream) :
    (s.modStream i f).stream j = if j = i then f (s.stream i) else s.stream j := by
  by_cases h : j = i
  · subst h; simp
  · simp [h, State.stream_modStream_ne s f h]

@[simp] theorem State.desc_modDesc_same (s : State) (i : Handle) (f : Descriptor → Descriptor) : (s.modDesc i f).desc i = f (s.desc i) :=
  vector_get_set_same s.descs i _

theorem State.desc_modDesc_ne (s : State) {i j : Handle} (f : Descriptor → Descriptor) (h : j ≠ i) : (s.modDesc i f).desc j = s.desc j :=
  vector_get_set_ne s.descs _ h

theorem State.desc_modDesc (s : State) (i j : Handle) (f : Descriptor → Descriptor) :
    (s.modDesc i f).desc j = if j = i then f (s.desc i) else s.desc j := by
  by_cases h : j = i
  · subst h; simp
  · simp [h, State.desc_modDesc_ne s f h]

@[simp] theorem State.lane_modLane_same (s : State) (i : LaneNo) (f : Lane → Lane) : (s.modLane i f).lane i = f (s.lane i) :=
  vector_get_set_same s.lanes i _

theorem State.lane_modLane_ne (s : State) {i j : LaneNo} (f : Lane → Lane) (h : j ≠ i) : (s.modLane i f).lane j = s.lane j :=
  vector_get_set_ne s.lanes _ h

theorem State.lane_modLane (s : State) (i j : LaneNo) (f : Lane → Lane) :
    (s.modLane i f).lane j = if j = i then f (s.lane i) else s.lane j := by
  by_cases h : j = i
  · subst h; simp
  · simp [h, State.lane_modLane_ne s f h]

@[simp] theorem State.domain_modDomain_same (s : State) (d : DomainId) (f : Domain → Domain) :
    (s.modDomain d f).domain d = f (s.domain d) := by
  cases d <;> rfl

theorem State.domain_modDomain_ne (s : State) {d e : DomainId} (f : Domain → Domain) (h : e ≠ d) :
    (s.modDomain d f).domain e = s.domain e := by
  cases d <;> cases e <;> first | rfl | exact absurd rfl h

@[simp] theorem State.stream_mapStreams (s : State) (f : Stream → Stream) (i : StreamNo) :
    (s.mapStreams f).stream i = f (s.stream i) :=
  vector_get_ofFn _ i

@[simp] theorem State.lane_mapLanesOf (s : State) (d : DomainId) (f : LaneNo → Lane → Lane) (l : LaneNo) :
    (s.mapLanesOf d f).lane l = if (s.lane l).domain = d then f l (s.lane l) else s.lane l :=
  vector_get_ofFn _ l

/-! ## modStream -/

@[simp] theorem State.modStream_pending (s : State) (i : StreamNo) (f : Stream → Stream) : (s.modStream i f).pending = s.pending := rfl
@[simp] theorem State.modStream_port (s : State) (i : StreamNo) (f : Stream → Stream) : (s.modStream i f).port = s.port := rfl
@[simp] theorem State.modStream_owners (s : State) (i : StreamNo) (f : Stream → Stream) : (s.modStream i f).owners = s.owners := rfl
@[simp] theorem State.modStream_descs (s : State) (i : StreamNo) (f : Stream → Stream) : (s.modStream i f).descs = s.descs := rfl
@[simp] theorem State.modStream_freeList (s : State) (i : StreamNo) (f : Stream → Stream) : (s.modStream i f).freeList = s.freeList := rfl
@[simp] theorem State.modStream_mem (s : State) (i : StreamNo) (f : Stream → Stream) : (s.modStream i f).mem = s.mem := rfl
@[simp] theorem State.modStream_inFlight (s : State) (i : StreamNo) (f : Stream → Stream) : (s.modStream i f).inFlight = s.inFlight := rfl
@[simp] theorem State.modStream_mode (s : State) (i : StreamNo) (f : Stream → Stream) : (s.modStream i f).mode = s.mode := rfl
@[simp] theorem State.modStream_rotation (s : State) (i : StreamNo) (f : Stream → Stream) : (s.modStream i f).rotation = s.rotation := rfl
@[simp] theorem State.modStream_domA (s : State) (i : StreamNo) (f : Stream → Stream) : (s.modStream i f).domA = s.domA := rfl
@[simp] theorem State.modStream_domB (s : State) (i : StreamNo) (f : Stream → Stream) : (s.modStream i f).domB = s.domB := rfl
@[simp] theorem State.modStream_lanes (s : State) (i : StreamNo) (f : Stream → Stream) : (s.modStream i f).lanes = s.lanes := rfl
@[simp] theorem State.modStream_ovr (s : State) (i : StreamNo) (f : Stream → Stream) : (s.modStream i f).ovr = s.ovr := rfl
@[simp] theorem State.modStream_claims (s : State) (i : StreamNo) (f : Stream → Stream) : (s.modStream i f).claims = s.claims := rfl
@[simp] theorem State.modStream_freeCount (s : State) (i : StreamNo) (f : Stream → Stream) : (s.modStream i f).freeCount = s.freeCount := rfl
@[simp] theorem State.modStream_desc (s : State) (i : StreamNo) (f : Stream → Stream) (x : Handle) : (s.modStream i f).desc x = s.desc x := rfl
@[simp] theorem State.modStream_lane (s : State) (i : StreamNo) (f : Stream → Stream) (x : LaneNo) : (s.modStream i f).lane x = s.lane x := rfl
@[simp] theorem State.modStream_domain (s : State) (i : StreamNo) (f : Stream → Stream) (x : DomainId) : (s.modStream i f).domain x = s.domain x := by
  cases x <;> rfl

/-! ## modDesc -/

@[simp] theorem State.modDesc_pending (s : State) (h : Handle) (f : Descriptor → Descriptor) : (s.modDesc h f).pending = s.pending := rfl
@[simp] theorem State.modDesc_port (s : State) (h : Handle) (f : Descriptor → Descriptor) : (s.modDesc h f).port = s.port := rfl
@[simp] theorem State.modDesc_streams (s : State) (h : Handle) (f : Descriptor → Descriptor) : (s.modDesc h f).streams = s.streams := rfl
@[simp] theorem State.modDesc_owners (s : State) (h : Handle) (f : Descriptor → Descriptor) : (s.modDesc h f).owners = s.owners := rfl
@[simp] theorem State.modDesc_freeList (s : State) (h : Handle) (f : Descriptor → Descriptor) : (s.modDesc h f).freeList = s.freeList := rfl
@[simp] theorem State.modDesc_mem (s : State) (h : Handle) (f : Descriptor → Descriptor) : (s.modDesc h f).mem = s.mem := rfl
@[simp] theorem State.modDesc_inFlight (s : State) (h : Handle) (f : Descriptor → Descriptor) : (s.modDesc h f).inFlight = s.inFlight := rfl
@[simp] theorem State.modDesc_mode (s : State) (h : Handle) (f : Descriptor → Descriptor) : (s.modDesc h f).mode = s.mode := rfl
@[simp] theorem State.modDesc_rotation (s : State) (h : Handle) (f : Descriptor → Descriptor) : (s.modDesc h f).rotation = s.rotation := rfl
@[simp] theorem State.modDesc_domA (s : State) (h : Handle) (f : Descriptor → Descriptor) : (s.modDesc h f).domA = s.domA := rfl
@[simp] theorem State.modDesc_domB (s : State) (h : Handle) (f : Descriptor → Descriptor) : (s.modDesc h f).domB = s.domB := rfl
@[simp] theorem State.modDesc_lanes (s : State) (h : Handle) (f : Descriptor → Descriptor) : (s.modDesc h f).lanes = s.lanes := rfl
@[simp] theorem State.modDesc_ovr (s : State) (h : Handle) (f : Descriptor → Descriptor) : (s.modDesc h f).ovr = s.ovr := rfl
@[simp] theorem State.modDesc_claims (s : State) (h : Handle) (f : Descriptor → Descriptor) : (s.modDesc h f).claims = s.claims := rfl
@[simp] theorem State.modDesc_freeCount (s : State) (h : Handle) (f : Descriptor → Descriptor) : (s.modDesc h f).freeCount = s.freeCount := rfl
@[simp] theorem State.modDesc_stream (s : State) (h : Handle) (f : Descriptor → Descriptor) (x : StreamNo) : (s.modDesc h f).stream x = s.stream x := rfl
@[simp] theorem State.modDesc_lane (s : State) (h : Handle) (f : Descriptor → Descriptor) (x : LaneNo) : (s.modDesc h f).lane x = s.lane x := rfl
@[simp] theorem State.modDesc_domain (s : State) (h : Handle) (f : Descriptor → Descriptor) (x : DomainId) : (s.modDesc h f).domain x = s.domain x := by
  cases x <;> rfl

/-! ## modLane -/

@[simp] theorem State.modLane_pending (s : State) (l : LaneNo) (f : Lane → Lane) : (s.modLane l f).pending = s.pending := rfl
@[simp] theorem State.modLane_port (s : State) (l : LaneNo) (f : Lane → Lane) : (s.modLane l f).port = s.port := rfl
@[simp] theorem State.modLane_streams (s : State) (l : LaneNo) (f : Lane → Lane) : (s.modLane l f).streams = s.streams := rfl
@[simp] theorem State.modLane_owners (s : State) (l : LaneNo) (f : Lane → Lane) : (s.modLane l f).owners = s.owners := rfl
@[simp] theorem State.modLane_descs (s : State) (l : LaneNo) (f : Lane → Lane) : (s.modLane l f).descs = s.descs := rfl
@[simp] theorem State.modLane_freeList (s : State) (l : LaneNo) (f : Lane → Lane) : (s.modLane l f).freeList = s.freeList := rfl
@[simp] theorem State.modLane_mem (s : State) (l : LaneNo) (f : Lane → Lane) : (s.modLane l f).mem = s.mem := rfl
@[simp] theorem State.modLane_inFlight (s : State) (l : LaneNo) (f : Lane → Lane) : (s.modLane l f).inFlight = s.inFlight := rfl
@[simp] theorem State.modLane_mode (s : State) (l : LaneNo) (f : Lane → Lane) : (s.modLane l f).mode = s.mode := rfl
@[simp] theorem State.modLane_rotation (s : State) (l : LaneNo) (f : Lane → Lane) : (s.modLane l f).rotation = s.rotation := rfl
@[simp] theorem State.modLane_domA (s : State) (l : LaneNo) (f : Lane → Lane) : (s.modLane l f).domA = s.domA := rfl
@[simp] theorem State.modLane_domB (s : State) (l : LaneNo) (f : Lane → Lane) : (s.modLane l f).domB = s.domB := rfl
@[simp] theorem State.modLane_ovr (s : State) (l : LaneNo) (f : Lane → Lane) : (s.modLane l f).ovr = s.ovr := rfl
@[simp] theorem State.modLane_claims (s : State) (l : LaneNo) (f : Lane → Lane) : (s.modLane l f).claims = s.claims := rfl
@[simp] theorem State.modLane_freeCount (s : State) (l : LaneNo) (f : Lane → Lane) : (s.modLane l f).freeCount = s.freeCount := rfl
@[simp] theorem State.modLane_stream (s : State) (l : LaneNo) (f : Lane → Lane) (x : StreamNo) : (s.modLane l f).stream x = s.stream x := rfl
@[simp] theorem State.modLane_desc (s : State) (l : LaneNo) (f : Lane → Lane) (x : Handle) : (s.modLane l f).desc x = s.desc x := rfl
@[simp] theorem State.modLane_domain (s : State) (l : LaneNo) (f : Lane → Lane) (x : DomainId) : (s.modLane l f).domain x = s.domain x := by
  cases x <;> rfl

/-! ## mapStreams -/

@[simp] theorem State.mapStreams_pending (s : State) (f : Stream → Stream) : (s.mapStreams f).pending = s.pending := rfl
@[simp] theorem State.mapStreams_port (s : State) (f : Stream → Stream) : (s.mapStreams f).port = s.port := rfl
@[simp] theorem State.mapStreams_owners (s : State) (f : Stream → Stream) : (s.mapStreams f).owners = s.owners := rfl
@[simp] theorem State.mapStreams_descs (s : State) (f : Stream → Stream) : (s.mapStreams f).descs = s.descs := rfl
@[simp] theorem State.mapStreams_freeList (s : State) (f : Stream → Stream) : (s.mapStreams f).freeList = s.freeList := rfl
@[simp] theorem State.mapStreams_mem (s : State) (f : Stream → Stream) : (s.mapStreams f).mem = s.mem := rfl
@[simp] theorem State.mapStreams_inFlight (s : State) (f : Stream → Stream) : (s.mapStreams f).inFlight = s.inFlight := rfl
@[simp] theorem State.mapStreams_mode (s : State) (f : Stream → Stream) : (s.mapStreams f).mode = s.mode := rfl
@[simp] theorem State.mapStreams_rotation (s : State) (f : Stream → Stream) : (s.mapStreams f).rotation = s.rotation := rfl
@[simp] theorem State.mapStreams_domA (s : State) (f : Stream → Stream) : (s.mapStreams f).domA = s.domA := rfl
@[simp] theorem State.mapStreams_domB (s : State) (f : Stream → Stream) : (s.mapStreams f).domB = s.domB := rfl
@[simp] theorem State.mapStreams_lanes (s : State) (f : Stream → Stream) : (s.mapStreams f).lanes = s.lanes := rfl
@[simp] theorem State.mapStreams_ovr (s : State) (f : Stream → Stream) : (s.mapStreams f).ovr = s.ovr := rfl
@[simp] theorem State.mapStreams_claims (s : State) (f : Stream → Stream) : (s.mapStreams f).claims = s.claims := rfl
@[simp] theorem State.mapStreams_freeCount (s : State) (f : Stream → Stream) : (s.mapStreams f).freeCount = s.freeCount := rfl
@[simp] theorem State.mapStreams_desc (s : State) (f : Stream → Stream) (x : Handle) : (s.mapStreams f).desc x = s.desc x := rfl
@[simp] theorem State.mapStreams_lane (s : State) (f : Stream → Stream) (x : LaneNo) : (s.mapStreams f).lane x = s.lane x := rfl
@[simp] theorem State.mapStreams_domain (s : State) (f : Stream → Stream) (x : DomainId) : (s.mapStreams f).domain x = s.domain x := by
  cases x <;> rfl

/-! ## mapLanesOf -/

@[simp] theorem State.mapLanesOf_pending (s : State) (d : DomainId) (f : LaneNo → Lane → Lane) : (s.mapLanesOf d f).pending = s.pending := rfl
@[simp] theorem State.mapLanesOf_port (s : State) (d : DomainId) (f : LaneNo → Lane → Lane) : (s.mapLanesOf d f).port = s.port := rfl
@[simp] theorem State.mapLanesOf_streams (s : State) (d : DomainId) (f : LaneNo → Lane → Lane) : (s.mapLanesOf d f).streams = s.streams := rfl
@[simp] theorem State.mapLanesOf_owners (s : State) (d : DomainId) (f : LaneNo → Lane → Lane) : (s.mapLanesOf d f).owners = s.owners := rfl
@[simp] theorem State.mapLanesOf_descs (s : State) (d : DomainId) (f : LaneNo → Lane → Lane) : (s.mapLanesOf d f).descs = s.descs := rfl
@[simp] theorem State.mapLanesOf_freeList (s : State) (d : DomainId) (f : LaneNo → Lane → Lane) : (s.mapLanesOf d f).freeList = s.freeList := rfl
@[simp] theorem State.mapLanesOf_mem (s : State) (d : DomainId) (f : LaneNo → Lane → Lane) : (s.mapLanesOf d f).mem = s.mem := rfl
@[simp] theorem State.mapLanesOf_inFlight (s : State) (d : DomainId) (f : LaneNo → Lane → Lane) : (s.mapLanesOf d f).inFlight = s.inFlight := rfl
@[simp] theorem State.mapLanesOf_mode (s : State) (d : DomainId) (f : LaneNo → Lane → Lane) : (s.mapLanesOf d f).mode = s.mode := rfl
@[simp] theorem State.mapLanesOf_rotation (s : State) (d : DomainId) (f : LaneNo → Lane → Lane) : (s.mapLanesOf d f).rotation = s.rotation := rfl
@[simp] theorem State.mapLanesOf_domA (s : State) (d : DomainId) (f : LaneNo → Lane → Lane) : (s.mapLanesOf d f).domA = s.domA := rfl
@[simp] theorem State.mapLanesOf_domB (s : State) (d : DomainId) (f : LaneNo → Lane → Lane) : (s.mapLanesOf d f).domB = s.domB := rfl
@[simp] theorem State.mapLanesOf_ovr (s : State) (d : DomainId) (f : LaneNo → Lane → Lane) : (s.mapLanesOf d f).ovr = s.ovr := rfl
@[simp] theorem State.mapLanesOf_claims (s : State) (d : DomainId) (f : LaneNo → Lane → Lane) : (s.mapLanesOf d f).claims = s.claims := rfl
@[simp] theorem State.mapLanesOf_freeCount (s : State) (d : DomainId) (f : LaneNo → Lane → Lane) : (s.mapLanesOf d f).freeCount = s.freeCount := rfl
@[simp] theorem State.mapLanesOf_stream (s : State) (d : DomainId) (f : LaneNo → Lane → Lane) (x : StreamNo) : (s.mapLanesOf d f).stream x = s.stream x := rfl
@[simp] theorem State.mapLanesOf_desc (s : State) (d : DomainId) (f : LaneNo → Lane → Lane) (x : Handle) : (s.mapLanesOf d f).desc x = s.desc x := rfl
@[simp] theorem State.mapLanesOf_domain (s : State) (d : DomainId) (f : LaneNo → Lane → Lane) (x : DomainId) : (s.mapLanesOf d f).domain x = s.domain x := by
  cases x <;> rfl

/-! ## modPort -/

@[simp] theorem State.modPort_pending (s : State) (f : Port → Port) : (s.modPort f).pending = s.pending := rfl
@[simp] theorem State.modPort_port (s : State) (f : Port → Port) : (s.modPort f).port = f s.port := rfl
@[simp] theorem State.modPort_streams (s : State) (f : Port → Port) : (s.modPort f).streams = s.streams := rfl
@[simp] theorem State.modPort_owners (s : State) (f : Port → Port) : (s.modPort f).owners = s.owners := rfl
@[simp] theorem State.modPort_descs (s : State) (f : Port → Port) : (s.modPort f).descs = s.descs := rfl
@[simp] theorem State.modPort_freeList (s : State) (f : Port → Port) : (s.modPort f).freeList = s.freeList := rfl
@[simp] theorem State.modPort_mem (s : State) (f : Port → Port) : (s.modPort f).mem = s.mem := rfl
@[simp] theorem State.modPort_inFlight (s : State) (f : Port → Port) : (s.modPort f).inFlight = s.inFlight := rfl
@[simp] theorem State.modPort_mode (s : State) (f : Port → Port) : (s.modPort f).mode = s.mode := rfl
@[simp] theorem State.modPort_rotation (s : State) (f : Port → Port) : (s.modPort f).rotation = s.rotation := rfl
@[simp] theorem State.modPort_domA (s : State) (f : Port → Port) : (s.modPort f).domA = s.domA := rfl
@[simp] theorem State.modPort_domB (s : State) (f : Port → Port) : (s.modPort f).domB = s.domB := rfl
@[simp] theorem State.modPort_lanes (s : State) (f : Port → Port) : (s.modPort f).lanes = s.lanes := rfl
@[simp] theorem State.modPort_ovr (s : State) (f : Port → Port) : (s.modPort f).ovr = s.ovr := rfl
@[simp] theorem State.modPort_claims (s : State) (f : Port → Port) : (s.modPort f).claims = s.claims := rfl
@[simp] theorem State.modPort_freeCount (s : State) (f : Port → Port) : (s.modPort f).freeCount = s.freeCount := rfl
@[simp] theorem State.modPort_stream (s : State) (f : Port → Port) (x : StreamNo) : (s.modPort f).stream x = s.stream x := rfl
@[simp] theorem State.modPort_desc (s : State) (f : Port → Port) (x : Handle) : (s.modPort f).desc x = s.desc x := rfl
@[simp] theorem State.modPort_lane (s : State) (f : Port → Port) (x : LaneNo) : (s.modPort f).lane x = s.lane x := rfl
@[simp] theorem State.modPort_domain (s : State) (f : Port → Port) (x : DomainId) : (s.modPort f).domain x = s.domain x := by
  cases x <;> rfl

/-! ## release -/

@[simp] theorem State.release_pending (s : State) (ps : List PageNo) : (s.release ps).pending = s.pending := rfl
@[simp] theorem State.release_port (s : State) (ps : List PageNo) : (s.release ps).port = s.port := rfl
@[simp] theorem State.release_streams (s : State) (ps : List PageNo) : (s.release ps).streams = s.streams := rfl
@[simp] theorem State.release_owners (s : State) (ps : List PageNo) : (s.release ps).owners = s.owners := rfl
@[simp] theorem State.release_descs (s : State) (ps : List PageNo) : (s.release ps).descs = s.descs := rfl
@[simp] theorem State.release_freeList (s : State) (ps : List PageNo) : (s.release ps).freeList = s.freeList ++ ps := rfl
@[simp] theorem State.release_mem (s : State) (ps : List PageNo) : (s.release ps).mem = s.mem := rfl
@[simp] theorem State.release_inFlight (s : State) (ps : List PageNo) : (s.release ps).inFlight = s.inFlight := rfl
@[simp] theorem State.release_mode (s : State) (ps : List PageNo) : (s.release ps).mode = s.mode := rfl
@[simp] theorem State.release_rotation (s : State) (ps : List PageNo) : (s.release ps).rotation = s.rotation := rfl
@[simp] theorem State.release_domA (s : State) (ps : List PageNo) : (s.release ps).domA = s.domA := rfl
@[simp] theorem State.release_domB (s : State) (ps : List PageNo) : (s.release ps).domB = s.domB := rfl
@[simp] theorem State.release_lanes (s : State) (ps : List PageNo) : (s.release ps).lanes = s.lanes := rfl
@[simp] theorem State.release_ovr (s : State) (ps : List PageNo) : (s.release ps).ovr = s.ovr := rfl
@[simp] theorem State.release_claims (s : State) (ps : List PageNo) : (s.release ps).claims = s.claims := rfl
@[simp] theorem State.release_freeCount (s : State) (ps : List PageNo) : (s.release ps).freeCount = s.freeCount := rfl
@[simp] theorem State.release_stream (s : State) (ps : List PageNo) (x : StreamNo) : (s.release ps).stream x = s.stream x := rfl
@[simp] theorem State.release_desc (s : State) (ps : List PageNo) (x : Handle) : (s.release ps).desc x = s.desc x := rfl
@[simp] theorem State.release_lane (s : State) (ps : List PageNo) (x : LaneNo) : (s.release ps).lane x = s.lane x := rfl
@[simp] theorem State.release_domain (s : State) (ps : List PageNo) (x : DomainId) : (s.release ps).domain x = s.domain x := by
  cases x <;> rfl

/-! ## raiseClaim -/

@[simp] theorem State.raiseClaim_pending (s : State) (c : Claim) : (s.raiseClaim c).pending = s.pending := rfl
@[simp] theorem State.raiseClaim_port (s : State) (c : Claim) : (s.raiseClaim c).port = s.port := rfl
@[simp] theorem State.raiseClaim_streams (s : State) (c : Claim) : (s.raiseClaim c).streams = s.streams := rfl
@[simp] theorem State.raiseClaim_owners (s : State) (c : Claim) : (s.raiseClaim c).owners = s.owners := rfl
@[simp] theorem State.raiseClaim_descs (s : State) (c : Claim) : (s.raiseClaim c).descs = s.descs := rfl
@[simp] theorem State.raiseClaim_freeList (s : State) (c : Claim) : (s.raiseClaim c).freeList = s.freeList := rfl
@[simp] theorem State.raiseClaim_mem (s : State) (c : Claim) : (s.raiseClaim c).mem = s.mem := rfl
@[simp] theorem State.raiseClaim_inFlight (s : State) (c : Claim) : (s.raiseClaim c).inFlight = s.inFlight := rfl
@[simp] theorem State.raiseClaim_mode (s : State) (c : Claim) : (s.raiseClaim c).mode = s.mode := rfl
@[simp] theorem State.raiseClaim_rotation (s : State) (c : Claim) : (s.raiseClaim c).rotation = s.rotation := rfl
@[simp] theorem State.raiseClaim_domA (s : State) (c : Claim) : (s.raiseClaim c).domA = s.domA := rfl
@[simp] theorem State.raiseClaim_domB (s : State) (c : Claim) : (s.raiseClaim c).domB = s.domB := rfl
@[simp] theorem State.raiseClaim_lanes (s : State) (c : Claim) : (s.raiseClaim c).lanes = s.lanes := rfl
@[simp] theorem State.raiseClaim_ovr (s : State) (c : Claim) : (s.raiseClaim c).ovr = s.ovr := rfl
@[simp] theorem State.raiseClaim_claims (s : State) (c : Claim) : (s.raiseClaim c).claims = s.claims ++ [c] := rfl
@[simp] theorem State.raiseClaim_freeCount (s : State) (c : Claim) : (s.raiseClaim c).freeCount = s.freeCount := rfl
@[simp] theorem State.raiseClaim_stream (s : State) (c : Claim) (x : StreamNo) : (s.raiseClaim c).stream x = s.stream x := rfl
@[simp] theorem State.raiseClaim_desc (s : State) (c : Claim) (x : Handle) : (s.raiseClaim c).desc x = s.desc x := rfl
@[simp] theorem State.raiseClaim_lane (s : State) (c : Claim) (x : LaneNo) : (s.raiseClaim c).lane x = s.lane x := rfl
@[simp] theorem State.raiseClaim_domain (s : State) (c : Claim) (x : DomainId) : (s.raiseClaim c).domain x = s.domain x := by
  cases x <;> rfl

/-! ## appendEntry -/

@[simp] theorem State.appendEntry_pending (s : State) (b : EntryBody) : (s.appendEntry b).pending = s.pending := rfl
@[simp] theorem State.appendEntry_streams (s : State) (b : EntryBody) : (s.appendEntry b).streams = s.streams := rfl
@[simp] theorem State.appendEntry_owners (s : State) (b : EntryBody) : (s.appendEntry b).owners = s.owners := rfl
@[simp] theorem State.appendEntry_descs (s : State) (b : EntryBody) : (s.appendEntry b).descs = s.descs := rfl
@[simp] theorem State.appendEntry_freeList (s : State) (b : EntryBody) : (s.appendEntry b).freeList = s.freeList := rfl
@[simp] theorem State.appendEntry_mem (s : State) (b : EntryBody) : (s.appendEntry b).mem = s.mem := rfl
@[simp] theorem State.appendEntry_inFlight (s : State) (b : EntryBody) : (s.appendEntry b).inFlight = s.inFlight := rfl
@[simp] theorem State.appendEntry_mode (s : State) (b : EntryBody) : (s.appendEntry b).mode = s.mode := rfl
@[simp] theorem State.appendEntry_rotation (s : State) (b : EntryBody) : (s.appendEntry b).rotation = s.rotation := rfl
@[simp] theorem State.appendEntry_domA (s : State) (b : EntryBody) : (s.appendEntry b).domA = s.domA := rfl
@[simp] theorem State.appendEntry_domB (s : State) (b : EntryBody) : (s.appendEntry b).domB = s.domB := rfl
@[simp] theorem State.appendEntry_lanes (s : State) (b : EntryBody) : (s.appendEntry b).lanes = s.lanes := rfl
@[simp] theorem State.appendEntry_ovr (s : State) (b : EntryBody) : (s.appendEntry b).ovr = s.ovr := rfl
@[simp] theorem State.appendEntry_claims (s : State) (b : EntryBody) : (s.appendEntry b).claims = s.claims := rfl
@[simp] theorem State.appendEntry_freeCount (s : State) (b : EntryBody) : (s.appendEntry b).freeCount = s.freeCount := rfl
@[simp] theorem State.appendEntry_stream (s : State) (b : EntryBody) (x : StreamNo) : (s.appendEntry b).stream x = s.stream x := rfl
@[simp] theorem State.appendEntry_desc (s : State) (b : EntryBody) (x : Handle) : (s.appendEntry b).desc x = s.desc x := rfl
@[simp] theorem State.appendEntry_lane (s : State) (b : EntryBody) (x : LaneNo) : (s.appendEntry b).lane x = s.lane x := rfl
@[simp] theorem State.appendEntry_domain (s : State) (b : EntryBody) (x : DomainId) : (s.appendEntry b).domain x = s.domain x := by
  cases x <;> rfl

/-! ## voidIf -/

@[simp] theorem State.voidIf_pending (s : State) (p : Move → Bool) : (s.voidIf p).pending = s.pending := rfl
@[simp] theorem State.voidIf_port (s : State) (p : Move → Bool) : (s.voidIf p).port = s.port := rfl
@[simp] theorem State.voidIf_streams (s : State) (p : Move → Bool) : (s.voidIf p).streams = s.streams := rfl
@[simp] theorem State.voidIf_owners (s : State) (p : Move → Bool) : (s.voidIf p).owners = s.owners := rfl
@[simp] theorem State.voidIf_descs (s : State) (p : Move → Bool) : (s.voidIf p).descs = s.descs := rfl
@[simp] theorem State.voidIf_freeList (s : State) (p : Move → Bool) : (s.voidIf p).freeList = s.freeList := rfl
@[simp] theorem State.voidIf_mem (s : State) (p : Move → Bool) : (s.voidIf p).mem = s.mem := rfl
@[simp] theorem State.voidIf_mode (s : State) (p : Move → Bool) : (s.voidIf p).mode = s.mode := rfl
@[simp] theorem State.voidIf_rotation (s : State) (p : Move → Bool) : (s.voidIf p).rotation = s.rotation := rfl
@[simp] theorem State.voidIf_domA (s : State) (p : Move → Bool) : (s.voidIf p).domA = s.domA := rfl
@[simp] theorem State.voidIf_domB (s : State) (p : Move → Bool) : (s.voidIf p).domB = s.domB := rfl
@[simp] theorem State.voidIf_lanes (s : State) (p : Move → Bool) : (s.voidIf p).lanes = s.lanes := rfl
@[simp] theorem State.voidIf_ovr (s : State) (p : Move → Bool) : (s.voidIf p).ovr = s.ovr := rfl
@[simp] theorem State.voidIf_claims (s : State) (p : Move → Bool) : (s.voidIf p).claims = s.claims := rfl
@[simp] theorem State.voidIf_freeCount (s : State) (p : Move → Bool) : (s.voidIf p).freeCount = s.freeCount := rfl
@[simp] theorem State.voidIf_stream (s : State) (p : Move → Bool) (x : StreamNo) : (s.voidIf p).stream x = s.stream x := rfl
@[simp] theorem State.voidIf_desc (s : State) (p : Move → Bool) (x : Handle) : (s.voidIf p).desc x = s.desc x := rfl
@[simp] theorem State.voidIf_lane (s : State) (p : Move → Bool) (x : LaneNo) : (s.voidIf p).lane x = s.lane x := rfl
@[simp] theorem State.voidIf_domain (s : State) (p : Move → Bool) (x : DomainId) : (s.voidIf p).domain x = s.domain x := by
  cases x <;> rfl

/-! ## modDomain, raiseOnce -/

@[simp] theorem State.modDomain_pending (s : State) (d : DomainId) (f : Domain → Domain) : (s.modDomain d f).pending = s.pending := by
  cases d <;> rfl
@[simp] theorem State.modDomain_port (s : State) (d : DomainId) (f : Domain → Domain) : (s.modDomain d f).port = s.port := by
  cases d <;> rfl
@[simp] theorem State.modDomain_streams (s : State) (d : DomainId) (f : Domain → Domain) : (s.modDomain d f).streams = s.streams := by
  cases d <;> rfl
@[simp] theorem State.modDomain_owners (s : State) (d : DomainId) (f : Domain → Domain) : (s.modDomain d f).owners = s.owners := by
  cases d <;> rfl
@[simp] theorem State.modDomain_descs (s : State) (d : DomainId) (f : Domain → Domain) : (s.modDomain d f).descs = s.descs := by
  cases d <;> rfl
@[simp] theorem State.modDomain_freeList (s : State) (d : DomainId) (f : Domain → Domain) : (s.modDomain d f).freeList = s.freeList := by
  cases d <;> rfl
@[simp] theorem State.modDomain_mem (s : State) (d : DomainId) (f : Domain → Domain) : (s.modDomain d f).mem = s.mem := by
  cases d <;> rfl
@[simp] theorem State.modDomain_inFlight (s : State) (d : DomainId) (f : Domain → Domain) : (s.modDomain d f).inFlight = s.inFlight := by
  cases d <;> rfl
@[simp] theorem State.modDomain_mode (s : State) (d : DomainId) (f : Domain → Domain) : (s.modDomain d f).mode = s.mode := by
  cases d <;> rfl
@[simp] theorem State.modDomain_rotation (s : State) (d : DomainId) (f : Domain → Domain) : (s.modDomain d f).rotation = s.rotation := by
  cases d <;> rfl
@[simp] theorem State.modDomain_lanes (s : State) (d : DomainId) (f : Domain → Domain) : (s.modDomain d f).lanes = s.lanes := by
  cases d <;> rfl
@[simp] theorem State.modDomain_ovr (s : State) (d : DomainId) (f : Domain → Domain) : (s.modDomain d f).ovr = s.ovr := by
  cases d <;> rfl
@[simp] theorem State.modDomain_claims (s : State) (d : DomainId) (f : Domain → Domain) : (s.modDomain d f).claims = s.claims := by
  cases d <;> rfl
@[simp] theorem State.modDomain_freeCount (s : State) (d : DomainId) (f : Domain → Domain) : (s.modDomain d f).freeCount = s.freeCount := by
  cases d <;> rfl
@[simp] theorem State.modDomain_stream (s : State) (d : DomainId) (f : Domain → Domain) (x : StreamNo) : (s.modDomain d f).stream x = s.stream x := by
  cases d <;> rfl
@[simp] theorem State.modDomain_desc (s : State) (d : DomainId) (f : Domain → Domain) (x : Handle) : (s.modDomain d f).desc x = s.desc x := by
  cases d <;> rfl
@[simp] theorem State.modDomain_lane (s : State) (d : DomainId) (f : Domain → Domain) (x : LaneNo) : (s.modDomain d f).lane x = s.lane x := by
  cases d <;> rfl
@[simp] theorem State.raiseOnce_pending (s : State) (c : Claim) : (s.raiseOnce c).pending = s.pending := by
  unfold State.raiseOnce; split <;> rfl
@[simp] theorem State.raiseOnce_port (s : State) (c : Claim) : (s.raiseOnce c).port = s.port := by
  unfold State.raiseOnce; split <;> rfl
@[simp] theorem State.raiseOnce_streams (s : State) (c : Claim) : (s.raiseOnce c).streams = s.streams := by
  unfold State.raiseOnce; split <;> rfl
@[simp] theorem State.raiseOnce_owners (s : State) (c : Claim) : (s.raiseOnce c).owners = s.owners := by
  unfold State.raiseOnce; split <;> rfl
@[simp] theorem State.raiseOnce_descs (s : State) (c : Claim) : (s.raiseOnce c).descs = s.descs := by
  unfold State.raiseOnce; split <;> rfl
@[simp] theorem State.raiseOnce_freeList (s : State) (c : Claim) : (s.raiseOnce c).freeList = s.freeList := by
  unfold State.raiseOnce; split <;> rfl
@[simp] theorem State.raiseOnce_mem (s : State) (c : Claim) : (s.raiseOnce c).mem = s.mem := by
  unfold State.raiseOnce; split <;> rfl
@[simp] theorem State.raiseOnce_inFlight (s : State) (c : Claim) : (s.raiseOnce c).inFlight = s.inFlight := by
  unfold State.raiseOnce; split <;> rfl
@[simp] theorem State.raiseOnce_mode (s : State) (c : Claim) : (s.raiseOnce c).mode = s.mode := by
  unfold State.raiseOnce; split <;> rfl
@[simp] theorem State.raiseOnce_rotation (s : State) (c : Claim) : (s.raiseOnce c).rotation = s.rotation := by
  unfold State.raiseOnce; split <;> rfl
@[simp] theorem State.raiseOnce_domA (s : State) (c : Claim) : (s.raiseOnce c).domA = s.domA := by
  unfold State.raiseOnce; split <;> rfl
@[simp] theorem State.raiseOnce_domB (s : State) (c : Claim) : (s.raiseOnce c).domB = s.domB := by
  unfold State.raiseOnce; split <;> rfl
@[simp] theorem State.raiseOnce_lanes (s : State) (c : Claim) : (s.raiseOnce c).lanes = s.lanes := by
  unfold State.raiseOnce; split <;> rfl
@[simp] theorem State.raiseOnce_ovr (s : State) (c : Claim) : (s.raiseOnce c).ovr = s.ovr := by
  unfold State.raiseOnce; split <;> rfl
@[simp] theorem State.raiseOnce_freeCount (s : State) (c : Claim) : (s.raiseOnce c).freeCount = s.freeCount := by
  unfold State.raiseOnce; split <;> rfl
@[simp] theorem State.raiseOnce_stream (s : State) (c : Claim) (x : StreamNo) : (s.raiseOnce c).stream x = s.stream x := by
  unfold State.raiseOnce; split <;> rfl
@[simp] theorem State.raiseOnce_desc (s : State) (c : Claim) (x : Handle) : (s.raiseOnce c).desc x = s.desc x := by
  unfold State.raiseOnce; split <;> rfl
@[simp] theorem State.raiseOnce_lane (s : State) (c : Claim) (x : LaneNo) : (s.raiseOnce c).lane x = s.lane x := by
  unfold State.raiseOnce; split <;> rfl
@[simp] theorem State.raiseOnce_domain (s : State) (c : Claim) (x : DomainId) : (s.raiseOnce c).domain x = s.domain x := by
  unfold State.raiseOnce; split <;> (cases x <;> rfl)
@[simp] theorem State.raiseOnce_claims (s : State) (c : Claim) :
    (s.raiseOnce c).claims = if c ∈ s.claims then s.claims else s.claims ++ [c] := by
  unfold State.raiseOnce; split <;> rfl

theorem State.mem_raiseOnce (s : State) (c x : Claim) : x ∈ (s.raiseOnce c).claims ↔ x ∈ s.claims ∨ x = c := by
  by_cases h : c ∈ s.claims
  · simp only [State.raiseOnce_claims, h, if_true]
    exact ⟨Or.inl, fun e => e.elim id fun e => e ▸ h⟩
  · simp [h]

theorem State.claims_prefix_raiseOnce (s : State) (c : Claim) : s.claims <+: (s.raiseOnce c).claims := by
  rw [State.raiseOnce_claims]; split <;> simp

/-! ## appendEntry, voidIf -/

@[simp] theorem State.appendEntry_inbound (s : State) (b : EntryBody) : (s.appendEntry b).port.inbound = s.port.inbound := rfl
@[simp] theorem State.appendEntry_lastOut (s : State) (b : EntryBody) : (s.appendEntry b).port.lastOut = nextSeq s.port.lastOut := rfl
@[simp] theorem State.appendEntry_outbound (s : State) (b : EntryBody) : (s.appendEntry b).port.outbound =
    s.port.outbound ++ [{ seq := nextSeq s.port.lastOut, body := b, sent := false, carried := false }] := rfl
@[simp] theorem State.appendEntry_due (s : State) (b : EntryBody) : (s.appendEntry b).port.due = s.port.due := rfl
@[simp] theorem State.appendEntry_frame (s : State) (b : EntryBody) : (s.appendEntry b).port.frame = s.port.frame := rfl
@[simp] theorem State.appendEntry_csnLow (s : State) (b : EntryBody) : (s.appendEntry b).port.csnLow = s.port.csnLow := rfl
@[simp] theorem State.voidIf_inFlight (s : State) (p : Move → Bool) :
    (s.voidIf p).inFlight = s.inFlight.map fun m => { m with void := m.void || p m } := rfl

/-! ## Sequence numbers -/

theorem nextSeq_ne_zero (q : BitVec 8) : nextSeq q ≠ 0 := by
  unfold nextSeq; split
  · decide
  · intro h; bv_omega

end Sys2Proof.Machine
end

