-- ==== Sys2Proof/Laws/Queue.lean ====
section
/-! SUPPORT. How many positions of a new span are late, and everything that the life of a queued descriptor can touch: its own
record, its stream's queue, backlog, state and event record, the free list and the claim list, both only at their tails. -/

namespace Sys2Proof.Machine

/-! ## How many positions of a new span are late (R35, R36) -/

theorem precedes_iff {a b : FrameNo} : precedes a b = true ↔ 1 ≤ (b - a).toNat ∧ (b - a).toNat < 2 ^ 31 := by
  rw [precedes, Bool.and_eq_true, decide_eq_true_iff, decide_eq_true_iff]

theorem playLateCount_le (S e : FrameNo) (n : Nat) : playLateCount S e n ≤ n := by
  unfold playLateCount
  split <;> omega

@[simp] theorem playLateCount_self (S : FrameNo) (n : Nat) : playLateCount S S n = 0 := by
  simp [playLateCount]

theorem playLateCount_of_earlier {S e : FrameNo} (h1 : 1 ≤ (e - S).toNat) (h2 : (e - S).toNat ≤ 2 ^ 31) (n : Nat) :
    playLateCount S e n = min (e - S).toNat n :=
  if_pos ⟨h1, h2⟩

theorem playLateCount_of_ahead {S e : FrameNo} (h : 2 ^ 31 < (e - S).toNat) (n : Nat) : playLateCount S e n = 0 :=
  if_neg fun hc => absurd hc.2 (Nat.not_le_of_lt h)

theorem lateCount_le (S e : FrameNo) (n : Nat) : lateCount S e n ≤ n := by
  unfold lateCount
  split <;> omega

@[simp] theorem lateCount_self (S : FrameNo) (n : Nat) : lateCount S S n = 0 := by
  simp [lateCount, precedes]

theorem lateCount_of_earlier {S e : FrameNo} (h1 : 1 ≤ (e - S).toNat) (h2 : (e - S).toNat < 2 ^ 31) (n : Nat) :
    lateCount S e n = min (e - S).toNat n :=
  if_pos (precedes_iff.mpr ⟨h1, h2⟩)

theorem lateCount_of_ahead {S e : FrameNo} (h : 2 ^ 31 ≤ (e - S).toNat) (n : Nat) : lateCount S e n = 0 :=
  if_neg fun hc => absurd (precedes_iff.mp hc).2 (Nat.not_lt_of_le h)

/-! ## What a queued descriptor can touch -/

/-- What SUBMIT recorded in a descriptor (R29), and the bytes it has been given and has stored. -/
def Descriptor.order (d : Descriptor) : (StreamNo × BitVec 8 × Direction × BitVec 16) × (Nat × Nat × Start × List PageNo) × Nat × Nat :=
  ((d.stream, d.generation, d.direction, d.tag), (d.frames, d.bytes, d.start, d.pages), d.loaded, d.written)

/-- A change that keeps what SUBMIT recorded keeps it of every descriptor. -/
theorem order_modDesc {s : State} {h : Handle} (f : Descriptor → Descriptor) (hf : ∀ d, (f d).order = d.order)
    (h' : Handle) : ((s.modDesc h f).desc h').order = (s.desc h').order := by
  by_cases e : h' = h
  · simp [e, hf]
  · simp [State.desc_modDesc_ne s f e]

/-- From `s` to `t` only the descriptors queued at stream `i`, that stream, the free list and the claim list change; the
two lists only grow at the tail, the queue only shrinks, and the stream leaves its state only by draining. -/
structure QueueFrame (i : StreamNo) (s t : State) : Prop where
  pending : t.pending = s.pending
  port : t.port = s.port
  owners : t.owners = s.owners
  mem : t.mem = s.mem
  inFlight : t.inFlight = s.inFlight
  mode : t.mode = s.mode
  rotation : t.rotation = s.rotation
  domA : t.domA = s.domA
  domB : t.domB = s.domB
  lanes : t.lanes = s.lanes
  ovr : t.ovr = s.ovr
  freeCount : t.freeCount = s.freeCount
  free : s.freeList <+: t.freeList
  claims : s.claims <+: t.claims
  others : ∀ j, j ≠ i → t.stream j = s.stream j
  descs : ∀ h, h ∉ (s.stream i).queue → t.desc h = s.desc h
  order : ∀ h, (t.desc h).order = (s.desc h).order
  queue : List.Sublist (t.stream i).queue (s.stream i).queue
  opening : (t.stream i).generation = (s.stream i).generation ∧ (t.stream i).direction = (s.stream i).direction ∧
    (t.stream i).cls = (s.stream i).cls ∧ (t.stream i).overlay = (s.stream i).overlay ∧
    (t.stream i).width = (s.stream i).width ∧ (t.stream i).depth = (s.stream i).depth ∧
    (t.stream i).map = (s.stream i).map ∧ (t.stream i).domain = (s.stream i).domain
  ring : (t.stream i).ring = (s.stream i).ring
  sounding : (t.stream i).sounding = (s.stream i).sounding
  state : (t.stream i).state = (s.stream i).state ∨
    ((s.stream i).state = .stopping ∧ (t.stream i).state = .idle ∧ (t.stream i).queue = [])

theorem QueueFrame.refl (i : StreamNo) (s : State) : QueueFrame i s s where
  pending := rfl
  port := rfl
  owners := rfl
  mem := rfl
  inFlight := rfl
  mode := rfl
  rotation := rfl
  domA := rfl
  domB := rfl
  lanes := rfl
  ovr := rfl
  freeCount := rfl
  free := List.prefix_refl _
  claims := List.prefix_refl _
  others := fun _ _ => rfl
  descs := fun _ _ => rfl
  order := fun _ => rfl
  queue := List.Sublist.refl _
  opening := ⟨rfl, rfl, rfl, rfl, rfl, rfl, rfl, rfl⟩
  ring := rfl
  sounding := rfl
  state := .inl rfl

theorem QueueFrame.trans {i : StreamNo} {s t u : State} (a : QueueFrame i s t) (b : QueueFrame i t u) :
    QueueFrame i s u where
  pending := b.pending.trans a.pending
  port := b.port.trans a.port
  owners := b.owners.trans a.owners
  mem := b.mem.trans a.mem
  inFlight := b.inFlight.trans a.inFlight
  mode := b.mode.trans a.mode
  rotation := b.rotation.trans a.rotation
  domA := b.domA.trans a.domA
  domB := b.domB.trans a.domB
  lanes := b.lanes.trans a.lanes
  ovr := b.ovr.trans a.ovr
  freeCount := b.freeCount.trans a.freeCount
  free := a.free.trans b.free
  claims := a.claims.trans b.claims
  others := fun j h => (b.others j h).trans (a.others j h)
  descs := fun h hn => (b.descs h fun e => hn (a.queue.subset e)).trans (a.descs h hn)
  order := fun h => (b.order h).trans (a.order h)
  queue := b.queue.trans a.queue
  opening := by
    obtain ⟨a1, a2, a3, a4, a5, a6, a7, a8⟩ := a.opening
    obtain ⟨b1, b2, b3, b4, b5, b6, b7, b8⟩ := b.opening
    exact ⟨b1.trans a1, b2.trans a2, b3.trans a3, b4.trans a4, b5.trans a5, b6.trans a6, b7.trans a7, b8.trans a8⟩
  ring := b.ring.trans a.ring
  sounding := b.sounding.trans a.sounding
  state := by
    rcases b.state with hb | ⟨h1, h2, h3⟩
    · rcases a.state with ha | ⟨h1, h2, h3⟩
      · exact .inl (hb.trans ha)
      · exact .inr ⟨h1, hb.trans h2, List.sublist_nil.mp (h3 ▸ b.queue)⟩
    · rcases a.state with ha | ⟨g1, g2, g3⟩
      · exact .inr ⟨ha ▸ h1, h2, h3⟩
      · rw [g2] at h1; cases h1

/-- A change of one queued descriptor that keeps what SUBMIT recorded. -/
theorem QueueFrame.modDesc {i : StreamNo} {s : State} {h : Handle} (f : Descriptor → Descriptor)
    (hq : h ∈ (s.stream i).queue) (hf : ∀ d, (f d).order = d.order := by intro d; rfl) : QueueFrame i s (s.modDesc h f) :=
  { QueueFrame.refl i s with
    descs := fun _ hn => State.desc_modDesc_ne s f fun e => hn (e ▸ hq)
    order := order_modDesc f hf }

/-- A change of the stream that keeps its opening, ring and sounding flag, shrinks its queue at most, and leaves its
state or drains. -/
theorem QueueFrame.modStream {i : StreamNo} {s : State} (f : Stream → Stream)
    (hq : List.Sublist (f (s.stream i)).queue (s.stream i).queue)
    (ho : (f (s.stream i)).generation = (s.stream i).generation ∧ (f (s.stream i)).direction = (s.stream i).direction ∧
      (f (s.stream i)).cls = (s.stream i).cls ∧ (f (s.stream i)).overlay = (s.stream i).overlay ∧
      (f (s.stream i)).width = (s.stream i).width ∧ (f (s.stream i)).depth = (s.stream i).depth ∧
      (f (s.stream i)).map = (s.stream i).map ∧ (f (s.stream i)).domain = (s.stream i).domain)
    (hr : (f (s.stream i)).ring = (s.stream i).ring) (hf : (f (s.stream i)).sounding = (s.stream i).sounding)
    (hs : (f (s.stream i)).state = (s.stream i).state ∨
      ((s.stream i).state = .stopping ∧ (f (s.stream i)).state = .idle ∧ (f (s.stream i)).queue = [])) :
    QueueFrame i s (s.modStream i f) :=
  { QueueFrame.refl i s with
    others := fun j h => State.stream_modStream_ne s f h
    queue := by simpa using hq
    opening := by simpa using ho
    ring := by simpa using hr
    sounding := by simpa using hf
    state := by simpa using hs }

theorem QueueFrame.release (i : StreamNo) (s : State) (ps : List PageNo) : QueueFrame i s (s.release ps) :=
  { QueueFrame.refl i s with free := by simp }

theorem QueueFrame.raiseClaim (i : StreamNo) (s : State) (c : Claim) : QueueFrame i s (s.raiseClaim c) :=
  { QueueFrame.refl i s with claims := by simp }

theorem QueueFrame.raiseOnce (i : StreamNo) (s : State) (c : Claim) : QueueFrame i s (s.raiseOnce c) := by
  unfold State.raiseOnce
  split
  · exact QueueFrame.refl i s
  · exact QueueFrame.raiseClaim i s c

theorem QueueFrame.releaseEntries {i : StreamNo} {s : State} {h : Handle} (n : Nat) (hq : h ∈ (s.stream i).queue) :
    QueueFrame i s (s.releaseEntries h n) :=
  (QueueFrame.release i s _).trans (QueueFrame.modDesc _ (by simpa using hq))

theorem QueueFrame.resolvePlay {i : StreamNo} {s : State} {h : Handle} (o : PlayOutcome) (k : Nat)
    (hq : h ∈ (s.stream i).queue) : QueueFrame i s (s.resolvePlay h o k) :=
  (QueueFrame.modDesc _ hq).trans (QueueFrame.releaseEntries _ (by simpa using hq))

theorem QueueFrame.passPage {i : StreamNo} {s : State} {h : Handle} (n : Nat) (hq : h ∈ (s.stream i).queue) :
    QueueFrame i s (s.passPage h n) := by
  unfold State.passPage
  split
  · exact QueueFrame.refl i s
  · exact (QueueFrame.raiseClaim i s _).trans (QueueFrame.modDesc _ (by simpa using hq))

/-- The pages of a descriptor that no queue of another stream holds are settled: only that descriptor, the free list and
the claims move. Stated of a descriptor that has just left the queue. -/
structure SettleFrame (h : Handle) (s t : State) : Prop where
  pending : t.pending = s.pending
  port : t.port = s.port
  owners : t.owners = s.owners
  mem : t.mem = s.mem
  inFlight : t.inFlight = s.inFlight
  mode : t.mode = s.mode
  rotation : t.rotation = s.rotation
  domA : t.domA = s.domA
  domB : t.domB = s.domB
  lanes : t.lanes = s.lanes
  ovr : t.ovr = s.ovr
  freeCount : t.freeCount = s.freeCount
  streams : t.streams = s.streams
  free : s.freeList <+: t.freeList
  claims : s.claims <+: t.claims
  descs : ∀ h', h' ≠ h → t.desc h' = s.desc h'
  order : ∀ h', (t.desc h').order = (s.desc h').order

theorem settlePages_frame (s : State) (h : Handle) : SettleFrame h s (s.settlePages h) := by
  have rel : ∀ (u : State) (n : Nat), SettleFrame h u (u.releaseEntries h n) := fun u n =>
    ⟨rfl, rfl, rfl, rfl, rfl, rfl, rfl, rfl, rfl, rfl, rfl, rfl, rfl, by simp [State.releaseEntries],
      by simp [State.releaseEntries], fun h' e => by simp [State.releaseEntries, State.desc_modDesc_ne _ _ e],
      order_modDesc _ fun _ => rfl⟩
  unfold State.settlePages
  split
  · exact rel _ _
  · unfold State.settleCapture State.passPage
    have step : ∀ (u : State), SettleFrame h s u → SettleFrame h s (u.releaseEntries h (s.desc h).pages.length) := by
      intro u a
      have b := rel u (s.desc h).pages.length
      exact ⟨b.1.trans a.1, b.2.trans a.2, b.3.trans a.3, b.4.trans a.4, b.5.trans a.5, b.6.trans a.6, b.7.trans a.7,
        b.8.trans a.8, b.9.trans a.9, b.10.trans a.10, b.11.trans a.11, b.12.trans a.12, b.13.trans a.13,
        a.14.trans b.14, a.15.trans b.15, fun h' e => (b.16 h' e).trans (a.16 h' e), fun h' => (b.17 h').trans (a.17 h')⟩
    have same : SettleFrame h s s :=
      ⟨rfl, rfl, rfl, rfl, rfl, rfl, rfl, rfl, rfl, rfl, rfl, rfl, rfl, List.prefix_refl _, List.prefix_refl _,
        fun _ _ => rfl, fun _ => rfl⟩
    dsimp only
    split
    · exact step s same
    · split
      · exact step s same
      · next p ps hp =>
        have pass : SettleFrame h s ((s.raiseClaim ((s.desc h).dataClaim h (s.desc h).gone
            ((s.desc h).written % Config.pageSize) p)).modDesc h fun d => { d with gone := d.gone + 1 }) :=
          ⟨rfl, rfl, rfl, rfl, rfl, rfl, rfl, rfl, rfl, rfl, rfl, rfl, rfl, List.prefix_refl _, by simp,
            fun h' e => by simp [State.desc_modDesc_ne _ _ e], order_modDesc _ fun _ => rfl⟩
        have b := rel ((s.raiseClaim ((s.desc h).dataClaim h (s.desc h).gone
            ((s.desc h).written % Config.pageSize) p)).modDesc h fun d => { d with gone := d.gone + 1 })
            (((s.raiseClaim ((s.desc h).dataClaim h (s.desc h).gone
            ((s.desc h).written % Config.pageSize) p)).modDesc h fun d => { d with gone := d.gone + 1 }).desc h).pages.length
        exact ⟨b.1.trans pass.1, b.2.trans pass.2, b.3.trans pass.3, b.4.trans pass.4, b.5.trans pass.5, b.6.trans pass.6,
          b.7.trans pass.7, b.8.trans pass.8, b.9.trans pass.9, b.10.trans pass.10, b.11.trans pass.11,
          b.12.trans pass.12, b.13.trans pass.13, pass.14.trans b.14, pass.15.trans b.15,
          fun h' e => (b.16 h' e).trans (pass.16 h' e), fun h' => (b.17 h').trans (pass.17 h')⟩

/-- A retirement (R44 steps 1 to 4). -/
theorem QueueFrame.retire {i : StreamNo} {s : State} {h : Handle} (o : DoneOutcome) (hq : h ∈ (s.stream i).queue) :
    QueueFrame i s (s.retire i h o) := by
  unfold State.retire
  have a : QueueFrame i s ((s.modDesc h fun d => d.retire o).modStream i fun st => { st with queue := st.queue.erase h }) :=
    (QueueFrame.modDesc _ hq).trans
      (QueueFrame.modStream _ (by simpa using List.erase_sublist) ⟨rfl, rfl, rfl, rfl, rfl, rfl, rfl, rfl⟩ rfl rfl (.inl rfl))
  refine QueueFrame.trans ?_ (QueueFrame.raiseClaim i _ _)
  have b := settlePages_frame ((s.modDesc h fun d => d.retire o).modStream i fun st =>
    { st with queue := st.queue.erase h }) h
  have hs : ∀ j, ∀ u : State, u.streams = ((s.modDesc h fun d => d.retire o).modStream i fun st =>
      { st with queue := st.queue.erase h }).streams → u.stream j = ((s.modDesc h fun d => d.retire o).modStream i fun st =>
      { st with queue := st.queue.erase h }).stream j := fun j u e => by simp only [State.stream, e]
  have hj := fun j => hs j _ b.streams
  exact
    { pending := b.pending.trans a.pending
      port := b.port.trans a.port
      owners := b.owners.trans a.owners
      mem := b.mem.trans a.mem
      inFlight := b.inFlight.trans a.inFlight
      mode := b.mode.trans a.mode
      rotation := b.rotation.trans a.rotation
      domA := b.domA.trans a.domA
      domB := b.domB.trans a.domB
      lanes := b.lanes.trans a.lanes
      ovr := b.ovr.trans a.ovr
      freeCount := b.freeCount.trans a.freeCount
      free := a.free.trans b.free
      claims := a.claims.trans b.claims
      others := fun j e => (hj j).trans (a.others j e)
      descs := fun h' hn => (b.descs h' fun e => hn (e ▸ hq)).trans (a.descs h' hn)
      order := fun h' => (b.order h').trans (a.order h')
      queue := by rw [hj i]; exact a.queue
      opening := by rw [hj i]; exact a.opening
      ring := by rw [hj i]; exact a.ring
      sounding := by rw [hj i]; exact a.sounding
      state := by rw [hj i]; exact a.state }

/-- A drain (R12). -/
theorem QueueFrame.drainIfEmpty (i : StreamNo) (s : State) : QueueFrame i s (s.drainIfEmpty i) := by
  unfold State.drainIfEmpty
  split
  · next h =>
    exact (QueueFrame.modStream (fun st =>
      { st with state := .idle, gapOpen := false, record := { st.record with drained := true } }) (List.Sublist.refl _) ⟨rfl, rfl, rfl, rfl, rfl, rfl, rfl, rfl⟩ rfl rfl
        (.inr ⟨h.1, rfl, h.2⟩)).trans (QueueFrame.raiseOnce i _ _)
  · exact QueueFrame.refl i s

theorem QueueFrame.retireResolved {i : StreamNo} {s : State} {h : Handle} (hq : h ∈ (s.stream i).queue) :
    QueueFrame i s (s.retireResolved i h) :=
  (QueueFrame.retire _ hq).trans (QueueFrame.drainIfEmpty i _)

/-- Becoming eligible (R32 to R36). -/
theorem QueueFrame.makeEligible {i : StreamNo} {s : State} {h : Handle} (ahead : Option Handle) (t : FrameTime)
    (hq : h ∈ (s.stream i).queue) : QueueFrame i s (s.makeEligible i h ahead t) := by
  unfold State.makeEligible
  split
  · exact (QueueFrame.modDesc _ hq).trans (QueueFrame.resolvePlay _ _ (by simpa using hq))
  · unfold State.makeCaptureEligible
    dsimp only
    split
    · exact QueueFrame.modDesc _ hq
    · exact (QueueFrame.modDesc _ hq).trans
        (QueueFrame.modStream _ (List.Sublist.refl _) ⟨rfl, rfl, rfl, rfl, rfl, rfl, rfl, rfl⟩ rfl rfl (.inl rfl))

/-- What R32 makes eligible stands in the queue. -/
theorem State.readyCapture_mem {s : State} {ahead : Option Handle} {q : List Handle} {e : Handle} {a : Option Handle}
    (h : s.readyCapture ahead q = some (e, a)) : e ∈ q ∧ (s.desc e).state = .ready := by
  induction q generalizing ahead with
  | nil => simp [State.readyCapture] at h
  | cons x rest ih =>
    unfold State.readyCapture at h
    split at h
    · next hr =>
      simp only [Option.some.injEq, Prod.mk.injEq] at h
      exact ⟨by simp [h.1], h.1 ▸ hr⟩
    · split at h
      · exact ⟨List.mem_cons_of_mem _ (ih h).1, (ih h).2⟩
      · cases h

theorem State.nextEligible_mem {s : State} {i : StreamNo} {e : Handle} {a : Option Handle}
    (h : s.nextEligible i = some (e, a)) :
    e ∈ (s.stream i).queue ∧ (s.desc e).state = .ready ∧ (s.stream i).moving = true := by
  unfold State.nextEligible at h
  split at h
  · next hm =>
    refine ⟨?_, ?_, hm⟩
    all_goals
      split at h
      · unfold State.readyPlay at h
        split at h
        · cases h
        · next x rest hq =>
          split at h
          · next hr =>
            simp only [Option.some.injEq, Prod.mk.injEq] at h
            simp [hq, ← h.1, hr]
          · cases h
      · have := State.readyCapture_mem h
        first | exact this.1 | exact this.2
  · cases h

/-- The queue coming to rest (R32, R35, R36, R44 step 5). -/
theorem settleQueue_frame (i : StreamNo) (t : FrameTime) (k : Nat) (s : State) :
    QueueFrame i s (State.settleQueue i t k s) := by
  induction k generalizing s with
  | zero => exact QueueFrame.refl i s
  | succ k ih =>
    unfold State.settleQueue
    split
    · exact QueueFrame.refl i s
    · next h rest hq =>
      have hm : h ∈ (s.stream i).queue := by simp [hq]
      split
      · exact (QueueFrame.retireResolved hm).trans (ih _)
      · split
        · exact QueueFrame.refl i s
        · next e a he => exact (QueueFrame.makeEligible a t (State.nextEligible_mem he).1).trans (ih _)

theorem settleAt_frame (s : State) (i : StreamNo) (t : FrameTime) : QueueFrame i s (s.settleAt i t) :=
  settleQueue_frame i t _ s

theorem settle_frame (s : State) (i : StreamNo) : QueueFrame i s (s.settle i) :=
  settleAt_frame s i _

/-- A stream that does not move, or whose head waits for bytes or for frames, is at rest already. -/
theorem settle_resting (s : State) (i : StreamNo) (hs : ∀ h ∈ (s.stream i).queue.head?, (s.desc h).spent = false)
    (he : s.nextEligible i = none) : s.settle i = s := by
  unfold State.settle State.settleAt State.turns State.settleQueue
  split
  · rfl
  · next h rest hq => simp [hs h (by simp [hq]), he]

end Sys2Proof.Machine
end

