-- ==== Sys2Proof/Laws/Engine.lean ====
section
/-! SUPPORT. The Transfer Engine's own operations: placing a frame in the ring, ranking by the rotation list, and the bytes
a capture move writes. -/

namespace Sys2Proof.Machine

/-- A frame placed at or past the ring's end makes the lead reach just past it (R72 step 3). -/
theorem placeInRing_length {ring : List RingEntry} {n : Nat} (e : RingEntry) (h : ring.length ≤ n) :
    (placeInRing ring n e).length = n + 1 := by
  simp [placeInRing, List.length_take]
  omega

/-- The entries already in the ring stay (R72). -/
theorem placeInRing_old {ring : List RingEntry} {n k : Nat} (e : RingEntry) (h : ring.length ≤ n) (hk : k < ring.length) :
    (placeInRing ring n e)[k]? = ring[k]? := by
  unfold placeInRing
  rw [List.take_of_length_le h, List.append_assoc, List.getElem?_append_left hk]

/-- The frames between are FILL (R72 step 1). -/
theorem placeInRing_fill {ring : List RingEntry} {n k : Nat} (e : RingEntry) (h : ring.length ≤ n) (h1 : ring.length ≤ k)
    (h2 : k < n) : (placeInRing ring n e)[k]? = some .fill := by
  unfold placeInRing
  rw [List.take_of_length_le h, List.append_assoc, List.getElem?_append_right h1,
    List.getElem?_append_left (by simp; omega)]
  simp [List.getElem?_replicate]
  omega

/-- The frame itself holds the entry placed (R72 step 2). -/
theorem placeInRing_last {ring : List RingEntry} {n : Nat} (e : RingEntry) (h : ring.length ≤ n) :
    (placeInRing ring n e)[n]? = some e := by
  unfold placeInRing
  rw [List.take_of_length_le h, List.getElem?_append_right (by simp; omega)]
  have : n - (ring.length + (n - ring.length)) = 0 := by omega
  simp [this]

/-- A grant keeps the rotation list a list of the same streams (R83). -/
theorem rotated_perm (mode : ArbMode) {i : StreamNo} {l : List StreamNo} (h : i ∈ l) : (rotated mode i l).Perm l := by
  cases mode with
  | fixed => exact List.Perm.refl _
  | rotating => exact (List.perm_append_singleton i _).trans (List.perm_cons_erase h).symm

/-- The stream granted requests a move (R82). -/
theorem State.arbitrate_requests {s : State} {i : StreamNo} (h : s.arbitrate = some i) :
    s.requests i = true ∧ i ∈ s.rotation := by
  unfold State.arbitrate at h
  split at h
  · next j hj =>
    cases h
    have := List.find?_some hj
    simp only [Bool.and_eq_true] at this
    exact ⟨this.1, List.mem_of_find?_eq_some hj⟩
  · exact ⟨List.find?_some h, List.mem_of_find?_eq_some h⟩

/-- A grant happens whenever a stream of the rotation list requests (R82). -/
theorem State.arbitrate_isSome {s : State} {i : StreamNo} (hi : i ∈ s.rotation) (h : s.requests i = true) :
    s.arbitrate.isSome = true := by
  unfold State.arbitrate
  split
  · rfl
  · rw [List.find?_isSome]
    exact ⟨i, hi, h⟩

/-- A sample has as many bytes as its memory width. -/
@[simp] theorem sampleBytes_length (w : Nat) (x : Word32) : (sampleBytes w x).length = w := by
  simp [sampleBytes]

/-- A capture move writes one frame: channels × memory width bytes (R56, R77). -/
theorem Move.captureBytes_length {m : Move} {w channels : Nat}
    (h : ∀ xs, m.kind = some (.held xs) → xs.length = channels) : (m.captureBytes w channels).length = channels * w := by
  unfold Move.captureBytes
  split
  · next xs hk =>
    split
    · simp
    · rw [List.length_flatMap]
      simp [h xs hk]
  · simp

end Sys2Proof.Machine
end

