-- ==== Sys2Proof/Laws/FrameEvent.lean ====
section
/-! SUPPORT. Everything that one item of a frame event can touch: a stream's own context, its queued descriptors, the tails
of the free list and the claim list, and the void mark of a move of that stream; a lane's own received-marker fields. -/

namespace Sys2Proof.Machine

/-! ## The order of the items -/

theorem insertRanked_perm (key : Item → Nat) (x : Item) (l : List Item) : (insertRanked key x l).Perm (x :: l) := by
  induction l with
  | nil => exact List.Perm.refl _
  | cons y rest ih =>
    unfold insertRanked
    split
    · exact List.Perm.refl _
    · exact (ih.cons y).trans (List.Perm.swap x y rest)

/-- Ranking takes every item once. -/
theorem sortRanked_perm (key : Item → Nat) (l : List Item) : (sortRanked key l).Perm l := by
  induction l with
  | nil => exact List.Perm.refl _
  | cons x rest ih => exact (insertRanked_perm key x _).trans (ih.cons x)

/-! ## One stream -/

/-- From `s` to `t` only what belongs to stream `i` changes: its context, the descriptors of its queue, the void mark of its
move in flight, and the tails of the free list and the claim list. -/
structure EventFrame (i : StreamNo) (s t : State) : Prop where
  pending : t.pending = s.pending
  port : t.port = s.port
  owners : t.owners = s.owners
  mem : t.mem = s.mem
  mode : t.mode = s.mode
  rotation : t.rotation = s.rotation
  domA : t.domA = s.domA
  domB : t.domB = s.domB
  lanes : t.lanes = s.lanes
  ovr : t.ovr = s.ovr
  freeCount : t.freeCount = s.freeCount
  inFlight : t.inFlight = s.inFlight ∨
    ∃ p : Move → Bool, (∀ m, p m = true → m.stream = i) ∧
      t.inFlight = s.inFlight.map fun m => { m with void := m.void || p m }
  free : s.freeList <+: t.freeList
  claims : s.claims <+: t.claims
  others : ∀ j, j ≠ i → t.stream j = s.stream j
  descs : ∀ h, h ∉ (s.stream i).queue → t.desc h = s.desc h
  queue : List.Sublist (t.stream i).queue (s.stream i).queue
  opening : (t.stream i).generation = (s.stream i).generation ∧ (t.stream i).direction = (s.stream i).direction ∧
    (t.stream i).cls = (s.stream i).cls ∧ (t.stream i).overlay = (s.stream i).overlay ∧
    (t.stream i).width = (s.stream i).width ∧ (t.stream i).depth = (s.stream i).depth ∧
    (t.stream i).map = (s.stream i).map ∧ (t.stream i).domain = (s.stream i).domain

theorem QueueFrame.event {i : StreamNo} {s t : State} (a : QueueFrame i s t) : EventFrame i s t where
  pending := a.pending
  port := a.port
  owners := a.owners
  mem := a.mem
  mode := a.mode
  rotation := a.rotation
  domA := a.domA
  domB := a.domB
  lanes := a.lanes
  ovr := a.ovr
  freeCount := a.freeCount
  inFlight := .inl a.inFlight
  free := a.free
  claims := a.claims
  others := a.others
  descs := a.descs
  queue := a.queue
  opening := a.opening

/-- A step that touches the queue alone, before or behind another. -/
theorem EventFrame.trans_queue {i : StreamNo} {s t u : State} (a : EventFrame i s t) (b : QueueFrame i t u) :
    EventFrame i s u where
  pending := b.pending.trans a.pending
  port := b.port.trans a.port
  owners := b.owners.trans a.owners
  mem := b.mem.trans a.mem
  mode := b.mode.trans a.mode
  rotation := b.rotation.trans a.rotation
  domA := b.domA.trans a.domA
  domB := b.domB.trans a.domB
  lanes := b.lanes.trans a.lanes
  ovr := b.ovr.trans a.ovr
  freeCount := b.freeCount.trans a.freeCount
  inFlight := by rw [b.inFlight]; exact a.inFlight
  free := a.free.trans b.free
  claims := a.claims.trans b.claims
  others := fun j h => (b.others j h).trans (a.others j h)
  descs := fun h hn => (b.descs h fun e => hn (a.queue.subset e)).trans (a.descs h hn)
  queue := b.queue.trans a.queue
  opening := by
    obtain ⟨a1, a2, a3, a4, a5, a6, a7, a8⟩ := a.opening
    obtain ⟨b1, b2, b3, b4, b5, b6, b7, b8⟩ := b.opening
    exact ⟨b1.trans a1, b2.trans a2, b3.trans a3, b4.trans a4, b5.trans a5, b6.trans a6, b7.trans a7, b8.trans a8⟩

/-- A change of the stream alone that keeps its opening and shrinks its queue at most. -/
theorem EventFrame.modStream {i : StreamNo} {s : State} (f : Stream → Stream)
    (hq : List.Sublist (f (s.stream i)).queue (s.stream i).queue)
    (ho : (f (s.stream i)).generation = (s.stream i).generation ∧ (f (s.stream i)).direction = (s.stream i).direction ∧
      (f (s.stream i)).cls = (s.stream i).cls ∧ (f (s.stream i)).overlay = (s.stream i).overlay ∧
      (f (s.stream i)).width = (s.stream i).width ∧ (f (s.stream i)).depth = (s.stream i).depth ∧
      (f (s.stream i)).map = (s.stream i).map ∧ (f (s.stream i)).domain = (s.stream i).domain) :
    EventFrame i s (s.modStream i f) :=
  { (QueueFrame.refl i s).event with
    others := fun j h => State.stream_modStream_ne s f h
    queue := by simpa using hq
    opening := by simpa using ho }

/-- Voiding a move of the stream (R38, R80). -/
theorem EventFrame.voidIf {i : StreamNo} (s : State) (p : Move → Bool) (hp : ∀ m, p m = true → m.stream = i) :
    EventFrame i s (s.voidIf p) :=
  { (QueueFrame.refl i s).event with inFlight := .inr ⟨p, hp, rfl⟩ }

/-- Gap accounting (R21, R22). -/
theorem QueueFrame.account (s : State) (i : StreamNo) (c : FrameClass) (f : FrameNo) : QueueFrame i s (s.account i c f) := by
  have gap : QueueFrame i s (s.modStream i fun st => st.gapFrame f) := by
    refine QueueFrame.modStream _ ?_ ?_ ?_ ?_ (.inl ?_) <;> (unfold Stream.gapFrame; split) <;>
      first | exact List.Sublist.refl _ | exact ⟨rfl, rfl, rfl, rfl, rfl, rfl, rfl, rfl⟩ | rfl
  unfold State.account
  split
  · exact QueueFrame.refl i s
  · split
    · dsimp only
      split
      · exact gap
      · exact gap.trans (QueueFrame.raiseOnce i _ _)
    · exact QueueFrame.refl i s
  · split
    · exact (QueueFrame.modStream (fun st => st.gapClosed f) (List.Sublist.refl _)
        ⟨rfl, rfl, rfl, rfl, rfl, rfl, rfl, rfl⟩ rfl rfl (.inl rfl)).trans (QueueFrame.raiseOnce i _ _)
    · exact QueueFrame.refl i s

theorem State.dueHead_mem {s : State} {i : StreamNo} {n : FrameNo} {h : Handle} (e : s.dueHead i n = some h) :
    (s.stream i).queue.head? = some h ∧ (s.desc h).eligible = true ∧ (s.desc h).resolved < (s.desc h).frames ∧
      (s.desc h).span.map (fun S => frameOf S (s.desc h).resolved) = some n := by
  unfold State.dueHead at e
  split at e
  · cases e
  · next x rest hq =>
    split at e
    · next hc => cases e; exact ⟨by simp [hq], hc⟩
    · cases e

/-- A play stream at a frame event (R73, R75). -/
theorem playEvent_frame (s : State) (i : StreamNo) (n : FrameNo) (t : FrameTime) : EventFrame i s (s.playEvent i n t) := by
  unfold State.playEvent
  split
  · split
    · refine EventFrame.trans_queue (EventFrame.modStream _ ?_ ?_) (QueueFrame.account _ _ _ _) <;>
        (unfold Stream.commit; split) <;>
        first | exact List.Sublist.refl _ | exact ⟨rfl, rfl, rfl, rfl, rfl, rfl, rfl, rfl⟩
    · split
      · next h hd =>
        have hq := List.mem_of_mem_head? (State.dueHead_mem hd).1
        refine EventFrame.trans_queue ?_ (QueueFrame.account _ _ _ _)
        refine EventFrame.trans_queue (EventFrame.trans_queue (EventFrame.voidIf s _ ?_)
          (QueueFrame.resolvePlay _ _ ?_)) (settleAt_frame _ _ _)
        · intro m hm
          simp only [Bool.and_eq_true, decide_eq_true_eq] at hm
          exact hm.1.1
        · exact hq
      · exact (QueueFrame.account _ _ _ _).event
  · exact EventFrame.modStream _ (List.Sublist.refl _) ⟨rfl, rfl, rfl, rfl, rfl, rfl, rfl, rfl⟩

/-- An overrun (R79) changes the backlog alone. -/
theorem overrun_frame (s : State) (i : StreamNo) : QueueFrame i s (s.overrun i) := by
  unfold State.overrun
  split
  · exact QueueFrame.modStream _ (List.Sublist.refl _) ⟨rfl, rfl, rfl, rfl, rfl, rfl, rfl, rfl⟩ rfl rfl (.inl rfl)
  · exact QueueFrame.refl i s

theorem assign_frame {s : State} {i : StreamNo} {h : Handle} (p : Nat) (f : FrameNo) (xs : List Word32)
    (hq : h ∈ (s.stream i).queue) : EventFrame i s (s.assign i h p f xs) := by
  unfold State.assign
  have a : EventFrame i s (s.modDesc h fun d => { d with state := .active, assigned := p + 1 }) :=
    (QueueFrame.modDesc _ hq).event
  have b : ∀ u : State, EventFrame i s u → EventFrame i s (u.modStream i fun st =>
      { st with backlog := st.backlog ++ [{ handle := h, position := p, frame := f, kind := .held xs }],
                sounding := true }) := fun u a =>
    { a with
      others := fun j e => (State.stream_modStream_ne u _ e).trans (a.others j e)
      queue := by simpa using a.queue
      opening := by simpa using a.opening }
  exact (b _ a).trans_queue (overrun_frame _ i)

theorem State.openDesc_mem {s : State} {q : List Handle} {h : Handle} (e : s.openDesc q = some h) :
    h ∈ q ∧ (s.desc h).eligible = true ∧ (s.desc h).assigned < (s.desc h).frames := by
  refine ⟨List.mem_of_find?_eq_some e, ?_⟩
  have := List.find?_some e
  simpa using this

/-- Two steps, each within the stream, make one. The second may void a move of the stream again. -/
theorem EventFrame.trans {i : StreamNo} {s t u : State} (a : EventFrame i s t) (b : EventFrame i t u) :
    EventFrame i s u where
  pending := b.pending.trans a.pending
  port := b.port.trans a.port
  owners := b.owners.trans a.owners
  mem := b.mem.trans a.mem
  mode := b.mode.trans a.mode
  rotation := b.rotation.trans a.rotation
  domA := b.domA.trans a.domA
  domB := b.domB.trans a.domB
  lanes := b.lanes.trans a.lanes
  ovr := b.ovr.trans a.ovr
  freeCount := b.freeCount.trans a.freeCount
  inFlight := by
    rcases b.inFlight with hb | ⟨p, hp, hb⟩
    · rw [hb]; exact a.inFlight
    · rcases a.inFlight with ha | ⟨q, hq, ha⟩
      · exact .inr ⟨p, hp, by rw [hb, ha]⟩
      · refine .inr ⟨fun m => q m || p { m with void := m.void || q m }, ?_, ?_⟩
        · intro m hm
          rcases Bool.or_eq_true _ _ ▸ hm with h | h
          · exact hq m h
          · exact hp { m with void := m.void || q m } h
        · rw [hb, ha, Option.map_map]
          congr 1
          funext m
          simp [Bool.or_assoc]
  free := a.free.trans b.free
  claims := a.claims.trans b.claims
  others := fun j h => (b.others j h).trans (a.others j h)
  descs := fun h hn => (b.descs h fun e => hn (a.queue.subset e)).trans (a.descs h hn)
  queue := b.queue.trans a.queue
  opening := by
    obtain ⟨a1, a2, a3, a4, a5, a6, a7, a8⟩ := a.opening
    obtain ⟨b1, b2, b3, b4, b5, b6, b7, b8⟩ := b.opening
    exact ⟨b1.trans a1, b2.trans a2, b3.trans a3, b4.trans a4, b5.trans a5, b6.trans a6, b7.trans a7, b8.trans a8⟩

/-- Offering a delivered frame (R40, R41). -/
theorem offer_frame (i : StreamNo) (t : FrameTime) (f : FrameNo) (xs : List Word32) (k : Nat) (s : State) :
    EventFrame i s (State.offer i t f xs k s).1 := by
  induction k generalizing s with
  | zero => exact (QueueFrame.refl i s).event
  | succ k ih =>
    unfold State.offer
    split
    · exact (QueueFrame.refl i s).event
    · next h ho =>
      have hq := (State.openDesc_mem ho).1
      dsimp only
      have pass : ∀ (p : Nat) (es : List BacklogEntry), QueueFrame i s ((s.modDesc h fun d => { d with assigned := p }).modStream i
          fun st => { st with backlog := st.backlog ++ es }) := fun p es =>
        (QueueFrame.modDesc _ hq).trans
          (QueueFrame.modStream _ (List.Sublist.refl _) ⟨rfl, rfl, rfl, rfl, rfl, rfl, rfl, rfl⟩ rfl rfl (.inl rfl))
      split
      · exact ((pass _ _).event.trans_queue (settleAt_frame _ _ _)).trans (ih _)
      · split
        · refine ((pass _ _).event.trans (assign_frame _ _ _ ?_)).trans_queue (settleAt_frame _ _ _)
          simpa using hq
        · exact (pass _ _).event

/-- A capture stream at an event that delivers a frame (R20, R40, R41). -/
theorem captureEvent_frame (s : State) (i : StreamNo) (W : Nat) (rx : RxFrame) (f : FrameNo) (t : FrameTime) :
    EventFrame i s (s.captureEvent i W rx f t) := by
  unfold State.captureEvent
  split
  · exact (offer_frame _ _ _ _ _ _).trans_queue (QueueFrame.account _ _ _ _)
  · exact (QueueFrame.refl i s).event

/-- A stream's item of a frame event stays within the stream. -/
theorem itemEvent_stream_frame (dom : Domain) (rx : RxFrame) (s : State) (i : StreamNo) :
    EventFrame i s (State.itemEvent dom rx s (.stream i)) := by
  simp only [State.itemEvent]
  split
  · exact playEvent_frame _ _ _ _
  · split
    · exact captureEvent_frame _ _ _ _ _ _
    · exact (QueueFrame.refl i s).event

/-! ## One lane -/

/-- A lane's item of a frame event changes that lane's received-marker fields and may raise its claim (R119). -/
theorem laneEvent_frame (s : State) (l : LaneNo) (W : Nat) (rx : RxFrame) (f : FrameNo) :
    (s.laneEvent l W rx f).pending = s.pending ∧ (s.laneEvent l W rx f).port = s.port ∧
      (s.laneEvent l W rx f).streams = s.streams ∧ (s.laneEvent l W rx f).owners = s.owners ∧
      (s.laneEvent l W rx f).descs = s.descs ∧ (s.laneEvent l W rx f).freeList = s.freeList ∧
      (s.laneEvent l W rx f).mem = s.mem ∧ (s.laneEvent l W rx f).inFlight = s.inFlight ∧
      (s.laneEvent l W rx f).mode = s.mode ∧ (s.laneEvent l W rx f).rotation = s.rotation ∧
      (s.laneEvent l W rx f).domA = s.domA ∧ (s.laneEvent l W rx f).domB = s.domB ∧ (s.laneEvent l W rx f).ovr = s.ovr ∧
      (s.laneEvent l W rx f).freeCount = s.freeCount ∧ s.claims <+: (s.laneEvent l W rx f).claims ∧
      ∀ l', l' ≠ l → (s.laneEvent l W rx f).lane l' = s.lane l' := by
  unfold State.laneEvent
  dsimp only
  split
  · exact ⟨rfl, rfl, rfl, rfl, rfl, rfl, rfl, rfl, rfl, rfl, rfl, rfl, rfl, rfl, List.prefix_refl _,
      fun _ h => State.lane_modLane_ne _ _ h⟩
  · split
    · exact ⟨rfl, rfl, rfl, rfl, rfl, rfl, rfl, rfl, rfl, rfl, rfl, rfl, rfl, rfl, List.prefix_refl _,
        fun _ h => State.lane_modLane_ne _ _ h⟩
    · refine ⟨by simp, by simp, by simp, by simp, by simp, by simp, by simp, by simp, by simp, by simp, by simp,
        by simp, by simp, by simp, ?_, fun l' h => ?_⟩
      · rw [State.raiseOnce_claims]; split <;> simp
      · simp [State.lane_modLane_ne _ _ h]

end Sys2Proof.Machine
end

