-- ==== Sys2Proof/Laws/Memory.lean ====
section
/-! SUPPORT. The buffer memory (read after write, the canonical form kept) and the ownership entries. -/

namespace Sys2Proof.Machine

/-! ## One byte -/

theorem Memory.read_write_same {lo : Nat} (m : Memory) (a : Nat) (v : Byte) (h : Memory.canonicalFrom lo m = true) :
    (m.write a v).read a = v := by
  induction m generalizing lo with
  | nil => by_cases hv : v = Memory.fill <;> simp [Memory.write, Memory.read, hv]
  | cons c rest ih =>
    obtain ⟨b, w⟩ := c
    simp only [Memory.canonicalFrom, Bool.and_eq_true, decide_eq_true_eq] at h
    have below : ∀ {k : Nat} {l : Memory}, Memory.canonicalFrom k l = true → a < k → l.read a = Memory.fill := by
      intro k l hl hk
      induction l generalizing k with
      | nil => rfl
      | cons c l ihl =>
        obtain ⟨d, x⟩ := c
        simp only [Memory.canonicalFrom, Bool.and_eq_true, decide_eq_true_eq] at hl
        have : a ≠ d := by omega
        simp only [Memory.read, this, if_false]
        exact ihl hl.2 (by omega)
    rcases Nat.lt_trichotomy a b with hab | hab | hab
    · by_cases hv : v = Memory.fill
      · simp only [Memory.write, hab, if_true, hv, Memory.read, show a ≠ b by omega, if_false]
        exact below h.2 (by omega)
      · simp [Memory.write, hab, hv, Memory.read]
    · subst hab
      by_cases hv : v = Memory.fill
      · simp only [Memory.write, Nat.lt_irrefl, if_false, if_true, hv]
        exact below h.2 (by omega)
      · simp [Memory.write, hv, Memory.read]
    · simp only [Memory.write, show ¬ a < b by omega, show a ≠ b by omega, if_false, Memory.read]
      exact ih h.2

theorem Memory.read_write_ne (m : Memory) {a b : Nat} (v : Byte) (h : b ≠ a) : (m.write a v).read b = m.read b := by
  induction m with
  | nil => by_cases hv : v = Memory.fill <;> simp [Memory.write, Memory.read, hv, h]
  | cons c rest ih =>
    obtain ⟨d, w⟩ := c
    by_cases hv : v = Memory.fill
    · by_cases h1 : a < d
      · simp [Memory.write, h1, hv]
      · by_cases h2 : a = d
        · subst h2; simp [Memory.write, hv, Memory.read, h]
        · simp only [Memory.write, h1, h2, if_false, Memory.read]; rw [ih]
    · by_cases h1 : a < d
      · simp [Memory.write, h1, hv, Memory.read, h]
      · by_cases h2 : a = d
        · subst h2; simp [Memory.write, hv, Memory.read, h]
        · simp only [Memory.write, h1, h2, if_false, Memory.read]; rw [ih]

theorem Memory.canonicalFrom_mono {m : Memory} {lo lo' : Nat} (h : Memory.canonicalFrom lo m = true) (hl : lo' ≤ lo) :
    Memory.canonicalFrom lo' m = true := by
  cases m with
  | nil => rfl
  | cons c rest =>
    obtain ⟨a, v⟩ := c
    simp only [Memory.canonicalFrom, Bool.and_eq_true, decide_eq_true_eq] at h ⊢
    exact ⟨⟨by omega, h.1.2⟩, h.2⟩

theorem Memory.canonicalFrom_write {m : Memory} {lo a : Nat} (v : Byte) (h : Memory.canonicalFrom lo m = true)
    (ha : lo ≤ a) : Memory.canonicalFrom lo (m.write a v) = true := by
  induction m generalizing lo with
  | nil => by_cases hv : v = Memory.fill <;> simp [Memory.write, Memory.canonicalFrom, hv, ha]
  | cons c rest ih =>
    obtain ⟨b, w⟩ := c
    have h' := h
    simp only [Memory.canonicalFrom, Bool.and_eq_true, decide_eq_true_eq] at h
    rcases Nat.lt_trichotomy a b with hab | hab | hab
    · by_cases hv : v = Memory.fill
      · simpa [Memory.write, hab, hv] using h'
      · simp only [Memory.write, hab, if_true, hv, if_false, Memory.canonicalFrom, Bool.and_eq_true, decide_eq_true_eq]
        exact ⟨⟨ha, hv⟩, ⟨hab, h.1.2⟩, h.2⟩
    · subst hab
      by_cases hv : v = Memory.fill
      · simp only [Memory.write, Nat.lt_irrefl, if_false, if_true, hv]
        exact Memory.canonicalFrom_mono h.2 (by omega)
      · simp only [Memory.write, Nat.lt_irrefl, if_false, if_true, hv, Memory.canonicalFrom, Bool.and_eq_true,
          decide_eq_true_eq]
        exact ⟨⟨ha, hv⟩, h.2⟩
    · simp only [Memory.write, show ¬ a < b by omega, show a ≠ b by omega, if_false, Memory.canonicalFrom,
        Bool.and_eq_true, decide_eq_true_eq]
      exact ⟨h.1, ih h.2 (by omega)⟩

/-- A write keeps the canonical form. -/
theorem Memory.wf_write {m : Memory} (a : Nat) (v : Byte) (h : m.wf = true) : (m.write a v).wf = true :=
  Memory.canonicalFrom_write v h (Nat.zero_le a)

/-! ## Runs of descriptor offsets -/

/-- Writing descriptor bytes keeps the canonical form. -/
theorem wf_writeOffsets (d : Descriptor) (b : Nat) (bs : List Byte) {m : Memory} (h : m.wf = true) :
    (writeOffsets d b bs m).wf = true := by
  induction bs generalizing b m with
  | nil => exact h
  | cons v vs ih =>
    simp only [writeOffsets]
    apply ih
    split
    · exact Memory.wf_write _ _ h
    · exact h

/-- A byte that no written offset names stays. -/
theorem read_writeOffsets_ne (d : Descriptor) (b : Nat) (bs : List Byte) (m : Memory) {a : Nat}
    (h : ∀ k, k < bs.length → d.addr (b + k) ≠ some a) : (writeOffsets d b bs m).read a = m.read a := by
  induction bs generalizing b m with
  | nil => rfl
  | cons v vs ih =>
    simp only [writeOffsets]
    rw [ih]
    · have h0 := h 0 (by simp)
      split
      · next a' ha' =>
        refine Memory.read_write_ne m v fun e => h0 ?_
        simpa [e] using ha'
      · rfl
    · intro k hk
      have := h (k + 1) (by simpa using hk)
      rwa [show b + (k + 1) = b + 1 + k by omega] at this

/-- A byte named by one written offset alone holds what was written there. -/
theorem read_writeOffsets_at (d : Descriptor) (b : Nat) (bs : List Byte) {m : Memory} {a k : Nat} (hm : m.wf = true)
    (hk : k < bs.length) (ha : d.addr (b + k) = some a)
    (once : ∀ j, j < bs.length → d.addr (b + j) = some a → j = k) :
    (writeOffsets d b bs m).read a = bs[k] := by
  induction bs generalizing b m k with
  | nil => simp at hk
  | cons v vs ih =>
    simp only [writeOffsets]
    cases k with
    | zero =>
      rw [read_writeOffsets_ne]
      · simp only [Nat.add_zero] at ha
        simp only [ha]
        exact Memory.read_write_same m a v hm
      · intro j hj e
        have := once (j + 1) (by simpa using hj) (by rwa [show b + (j + 1) = b + 1 + j by omega])
        omega
    | succ k =>
      have hm' : Memory.wf (match d.addr b with
          | some a => m.write a v
          | none => m) = true := by
        split
        · exact Memory.wf_write _ _ hm
        · exact hm
      refine (ih (b + 1) hm' (by simpa using hk) (by rwa [show b + 1 + k = b + (k + 1) by omega]) ?_).trans (by simp)
      intro j hj e
      have := once (j + 1) (by simpa using hj) (by rwa [show b + (j + 1) = b + 1 + j by omega])
      omega

/-! ## Ownership entries -/

/-- The entries an opening takes name it, the others stay. -/
theorem claimPositions_get (v : Vector (Option StreamNo) 64) (i : StreamNo) (map : List (LaneNo × SlotNo)) (q : Fin 64) :
    (claimPositions v i map).get q = if q ∈ map.map (fun e => posIndex e.1 e.2) then some i else v.get q := by
  induction map generalizing v with
  | nil => simp [claimPositions]
  | cons e rest ih =>
    obtain ⟨l, k⟩ := e
    simp only [claimPositions, ih, List.map_cons, List.mem_cons]
    by_cases hr : q ∈ rest.map fun e => posIndex e.1 e.2
    · simp [hr]
    · by_cases hq : q = posIndex l k
      · subst hq; simp [vector_get_set_same]
      · simp only [hr, hq, or_self, if_false]
        exact vector_get_set_ne v _ hq

/-- A closing frees the entries that name the stream. -/
@[simp] theorem freePositions_get (v : Vector (Option StreamNo) 64) (i : StreamNo) (q : Fin 64) :
    (freePositions v i).get q = if v.get q = some i then none else v.get q :=
  vector_get_ofFn _ q

/-- Each position has an entry of its own. -/
theorem posIndex_inj {l l' : LaneNo} {k k' : SlotNo} (h : posIndex l k = posIndex l' k') : l = l' ∧ k = k' := by
  have := congrArg Fin.val h
  simp only [posIndex] at this
  have := k.isLt
  have := k'.isLt
  exact ⟨Fin.ext (by omega), Fin.ext (by omega)⟩

end Sys2Proof.Machine
end

