-- ==== Sys2Proof/Laws/Port.lean ====
section
/-! SUPPORT. The port's own operations at the end of an exchange: what an acknowledgement removes, what a sending marks,
what a go-back leaves, and what a dealt request changes; and what the port's and the domains' pins show. -/

namespace Sys2Proof.Machine

/-- An acknowledgement that matches cuts the queue just behind the first carried entry of its number (R163). -/
theorem splitAck_some {a : BitVec 8} {es gone left : List Entry} (h : splitAck a es = some (gone, left)) :
    es = gone ++ left ∧ ∃ e front, gone = front ++ [e] ∧ e.carried = true ∧ e.seq = a ∧
      ∀ x ∈ front, ¬ (x.carried = true ∧ x.seq = a) := by
  induction es generalizing gone with
  | nil => simp [splitAck] at h
  | cons x rest ih =>
    unfold splitAck at h
    split at h
    · next hx =>
      simp only [Option.some.injEq, Prod.mk.injEq] at h
      obtain ⟨rfl, rfl⟩ := h
      exact ⟨rfl, x, [], rfl, hx.1, hx.2, by simp⟩
    · next hx =>
      split at h
      · cases h
      · next g l hs =>
        simp only [Option.some.injEq, Prod.mk.injEq] at h
        obtain ⟨rfl, rfl⟩ := h
        obtain ⟨he, e, front, hg, hc, hq, hf⟩ := ih hs
        refine ⟨by simp [he], e, x :: front, by simp [hg], hc, hq, ?_⟩
        intro y hy
        rcases List.mem_cons.mp hy with rfl | hy
        · exact hx
        · exact hf y hy

/-- An acknowledgement that matches no carried entry removes nothing (R163). -/
theorem splitAck_none {a : BitVec 8} {es : List Entry} :
    splitAck a es = none ↔ ∀ e ∈ es, ¬ (e.carried = true ∧ e.seq = a) := by
  induction es with
  | nil => simp [splitAck]
  | cons x rest ih =>
    unfold splitAck
    by_cases hx : x.carried = true ∧ x.seq = a
    · simp [hx]
    · simp only [hx, if_false, List.mem_cons, forall_eq_or_imp, not_false_eq_true, true_and, ← ih]
      cases splitAck a rest <;> simp

@[simp] theorem markCarried_length (q : BitVec 8) (es : List Entry) : (markCarried q es).length = es.length := by
  simp [markCarried]

/-- Marking an entry sent touches no number and no body (R143, R153). -/
theorem markCarried_fixed (q : BitVec 8) (es : List Entry) :
    (markCarried q es).map (fun e => (e.seq, e.body)) = es.map fun e => (e.seq, e.body) := by
  simp only [markCarried, List.map_map]
  apply List.map_congr_left
  intro e _
  by_cases h : e.seq = q <;> simp [h]

/-- A go-back touches no number, no body and no carried flag (R164). -/
theorem goBack_fixed (p : Port) :
    p.goBack.outbound.map (fun e => (e.seq, e.body, e.carried)) = p.outbound.map fun e => (e.seq, e.body, e.carried) := by
  simp [Port.goBack, Function.comp_def]

/-- Everything that dealing with a request can do (R157): append it, or nothing. -/
theorem dealRequest_cases (s : State) (seq kind : Byte) (payload : List Byte) :
    (s.dealRequest seq kind payload).1 = s ∨
      (s.dealRequest seq kind payload = (s.modPort fun p => { p with
        inbound := p.inbound ++ [{ seq := seq, kind := kind, payload := payload }], lastIn := seq }, .accepted) ∧
        kind ≠ nopKind ∧ seq = nextSeq s.port.lastIn ∧ 0 < s.room) := by
  unfold State.dealRequest
  split
  · exact .inl rfl
  · next hk =>
    split
    · exact .inl rfl
    · split
      · next hq =>
        split
        · next hr => exact .inr ⟨rfl, hk, hq, hr⟩
        · exact .inl rfl
      · exact .inl rfl

/-! ## Pins -/

/-- ATTN is low while RSTn holds the part in reset, whatever the queue (R166, R172). -/
@[simp] theorem attnPin_inReset (s : State) : s.attnPin true = false := rfl

@[simp] theorem attnPin_running (s : State) : s.attnPin false = s.attn := by simp [State.attnPin]

/-- SDO is driven exactly while the part is out of reset and CSn is low (R151, R172). -/
theorem sdoPin_notDriven_iff (s : State) (rstnLow : Bool) (j : Nat) :
    s.sdoPin rstnLow j = .notDriven ↔ rstnLow = true ∨ s.port.csnLow = false := by
  cases rstnLow <;> cases h : s.port.csnLow <;> simp [State.sdoPin, h]

/-- In an exchange SDO gives the frame's bytes, most significant bit first, and zeros beyond them (R151, R153). -/
theorem sdoPin_exchange (s : State) (f : OutFrame) (j : Nat) (hc : s.port.csnLow = true) (hf : s.port.frame = some f) :
    s.sdoPin false j = .driven (some ((f.bytes.getD (j / 8) 0).getLsbD (7 - j % 8))) := by
  simp [State.sdoPin, State.sdoByte, shiftedBit, hc, hf]

/-- A byte is made of the bits it shifts out (R151). -/
theorem byteOfBits_shiftedBit : ∀ b : Byte, byteOfBits (shiftedBit b 0) (shiftedBit b 1) (shiftedBit b 2) (shiftedBit b 3)
    (shiftedBit b 4) (shiftedBit b 5) (shiftedBit b 6) (shiftedBit b 7) = b := by decide +kernel

/-- One byte shifted in, most significant bit first, then the rest (R151). -/
@[simp] theorem sdiBytes_cons (b : Byte) (rest : List Bool) :
    sdiBytes ((List.range 8).map (shiftedBit b) ++ rest) = b :: sdiBytes rest :=
  congrArg (· :: sdiBytes rest) (byteOfBits_shiftedBit b)

/-- Bytes shifted out most significant bit first are the bytes shifted in, and fewer than eight bits after them are no byte
(R151). -/
theorem sdiBytes_shifted (bs : List Byte) (rest : List Bool) (hr : rest.length < 8) :
    sdiBytes (bs.flatMap (fun b => (List.range 8).map (shiftedBit b)) ++ rest) = bs := by
  induction bs with
  | nil => match rest, hr with
    | [], _ => rfl
    | [_], _ => rfl
    | [_, _], _ => rfl
    | [_, _, _], _ => rfl
    | [_, _, _, _], _ => rfl
    | [_, _, _, _, _], _ => rfl
    | [_, _, _, _, _, _], _ => rfl
    | [_, _, _, _, _, _, _], _ => rfl
  | cons b bs ih => simpa [List.append_assoc] using ih

/-- Only an INTERNAL domain drives its FCK (R87). -/
theorem fckPin_notDriven_iff (s : State) (d : DomainId) (k : Nat) :
    s.fckPin d k = .notDriven ↔ (s.domain d).source ≠ .internal := by
  simp [State.fckPin, State.drivesClocks]

/-- The generator's frame is high in its first half and low in its second (R88). -/
theorem fckPin_frame (s : State) (d : DomainId) (k : Nat) (hs : (s.domain d).source = .internal)
    (hf : (s.domain d).delivers = true) :
    s.fckPin d k = .driven (some (decide (k < (s.domain d).slots * (s.domain d).width / 2))) := by
  simp [State.fckPin, State.drivesClocks, Domain.fckLevel, hs, hf]

end Sys2Proof.Machine
end

