-- ==== Sys2Proof/Laws/Requests.lean ====
section
/-! SUPPORT. Taking the oldest request: when a taking command acts, and what an answer leaves. -/

namespace Sys2Proof.Machine

/-! ## The reply -/

/-- A reply once the request has left the inbound queue is the answered state (R161, R162). -/
theorem State.reply_taken (s : State) (rest : List Request) (r : Request) (st : Status) (b : ReplyBody) :
    (s.modPort fun p => { p with inbound := rest }).reply r st b = s.answered rest r st b := rfl

/-- A refusal is an answer that changes nothing else (R161). -/
theorem State.refuse_taken (s : State) (rest : List Request) (k : Kind) (r : Request) (st : Status) :
    (s.modPort fun p => { p with inbound := rest }).refuse k r st =
      s.answered rest r st (if k.hasSubject then .subject (byteAt r.payload 0) else .nothing) := rfl

/-! ## Taking -/

theorem State.takeHead_empty {s : State} {sel : Request → Bool} {act : Request → State → State}
    (h : s.port.inbound = []) : s.takeHead sel act = s := by
  simp [State.takeHead, h]

theorem State.takeHead_cons {s : State} {sel : Request → Bool} {act : Request → State → State} {r : Request}
    {rest : List Request} (h : s.port.inbound = r :: rest) :
    s.takeHead sel act = if sel r then act r (s.modPort fun p => { p with inbound := rest }) else s := by
  simp [State.takeHead, h]

/-- A request of the right kind whose length fits is acted on. -/
theorem State.takeKind_act {s : State} {k : Kind} {sel : Request → Bool} {act : Request → State → State} {r : Request}
    {rest : List Request} (h : s.port.inbound = r :: rest) (hk : kindOf r.kind = some k) (hs : sel r = true)
    (hl : lengthFits k r.payload = true) :
    s.takeKind k sel act = act r (s.modPort fun p => { p with inbound := rest }) := by
  simp [State.takeKind, State.takeHead_cons h, hk, hs, hl]

/-- A request of the right kind whose length does not fit is refused BAD_LENGTH (R161, R176). -/
theorem State.takeKind_badLength {s : State} {k : Kind} {sel : Request → Bool} {act : Request → State → State}
    {r : Request} {rest : List Request} (h : s.port.inbound = r :: rest) (hk : kindOf r.kind = some k)
    (hs : sel r = true) (hl : lengthFits k r.payload = false) :
    s.takeKind k sel act = s.answered rest r .badLength .nothing := by
  rw [State.takeKind, State.takeHead_cons h]
  simp only [hk, hs, hl, decide_true, Bool.and_self, if_true, Bool.false_eq_true, if_false]
  rfl

/-- Everything a taking command can do. -/
theorem State.takeKind_cases (s : State) (k : Kind) (sel : Request → Bool) (act : Request → State → State) :
    s.takeKind k sel act = s ∨ ∃ r rest, s.port.inbound = r :: rest ∧ kindOf r.kind = some k ∧ sel r = true ∧
      (lengthFits k r.payload = false ∧ s.takeKind k sel act = s.answered rest r .badLength .nothing ∨
        lengthFits k r.payload = true ∧ s.takeKind k sel act = act r (s.modPort fun p => { p with inbound := rest })) := by
  cases h : s.port.inbound with
  | nil => exact .inl (State.takeHead_empty h)
  | cons r rest =>
    by_cases hk : kindOf r.kind = some k
    · cases hs : sel r with
      | false => left; simp [State.takeKind, State.takeHead_cons h, hs]
      | true =>
        right
        refine ⟨r, rest, rfl, hk, hs, ?_⟩
        cases hl : lengthFits k r.payload with
        | false => exact .inl ⟨rfl, State.takeKind_badLength h hk hs hl⟩
        | true => exact .inr ⟨rfl, State.takeKind_act h hk hs hl⟩
    · left; simp [State.takeKind, State.takeHead_cons h, hk]

@[simp] theorem State.answer_ok {α : Type} (s : State) (k : Kind) (r : Request) (x : α) (act : α → State) :
    s.answer k r (.ok x) act = act x := rfl

@[simp] theorem State.answer_error {α : Type} (s : State) (k : Kind) (r : Request) (st : Status) (act : α → State) :
    s.answer k r (.error st) act = s.refuse k r st := rfl

/-! ## Checks -/

@[simp] theorem firstFailure_nil : firstFailure [] = none := rfl

@[simp] theorem firstFailure_cons (ok : Bool) (st : Status) (rest : List (Bool × Status)) :
    firstFailure ((ok, st) :: rest) = if ok then firstFailure rest else some st := rfl

/-- All checks hold exactly when none fails. -/
theorem firstFailure_eq_none {cs : List (Bool × Status)} : firstFailure cs = none ↔ ∀ c ∈ cs, c.1 = true := by
  induction cs with
  | nil => simp
  | cons c rest ih =>
    obtain ⟨ok, st⟩ := c
    cases ok <;> simp [ih]

/-- What the port's own part of a check reads is not what a taking changes: the checks of a stream request see the same
streams. -/
@[simp] theorem State.checkStream_modPort (s : State) (f : Port → Port) (p : List Byte) (accepts : Stream → Bool)
    (own : StreamNo → Stream → List (Bool × Status)) :
    (s.modPort f).checkStream p accepts own = s.checkStream p accepts own := rfl

/-- A stream request that passes names a stream in the table, in an accepted state, and passes its own checks (R1). -/
theorem State.checkStream_ok {s : State} {p : List Byte} {accepts : Stream → Bool}
    {own : StreamNo → Stream → List (Bool × Status)} {i : StreamNo} :
    s.checkStream p accepts own = .ok i ↔
      streamOf (byteAt p 0) = some i ∧ accepts (s.stream i) = true ∧ firstFailure (own i (s.stream i)) = none := by
  unfold State.checkStream
  cases hi : streamOf (byteAt p 0) with
  | none => simp
  | some j =>
    cases ha : accepts (s.stream j) with
    | false =>
      simp only [firstFailure_cons, ha, Bool.false_eq_true, if_false, Option.some.injEq]
      constructor
      · intro h; cases h
      · rintro ⟨rfl, h, _⟩; simp [ha] at h
    | true =>
      simp only [firstFailure_cons, ha, if_true, Option.some.injEq]
      cases hf : firstFailure (own j (s.stream j)) with
      | none =>
        simp only [Except.ok.injEq]
        constructor
        · rintro rfl; exact ⟨rfl, ha, hf⟩
        · exact fun h => h.1
      | some st =>
        simp only
        constructor
        · intro h; cases h
        · rintro ⟨rfl, _, h⟩; simp [hf] at h

/-! ## The queue of commands -/

theorem step_idle {s : State} (h : s.pending = []) : step s = .next s := by
  simp [step, h]

end Sys2Proof.Machine
end

