-- ==== Sys2Proof/WellFormed.lean ====
section
/-! DEFINITION. Which commands can stand for something that happens on the pins. -/

namespace Sys2Proof

/-- A command is well formed when its operands can be measured: a frame holds at least its own bit clock 1 and lasts
some time (R91), and a timeout comes after some time (R92, R94). Every other command takes every operand. -/
def Instr.wellFormed : Instr → Bool
  | .pinReset _ _ => true
  | .csnFalling => true
  | .endOfExchange _ => true
  | .unknownKind => true
  | .identify => true
  | .status => true
  | .resetFull => true
  | .resetStreams => true
  | .setDomain => true
  | .queryTime => true
  | .setLane => true
  | .setMarker => true
  | .openStream => true
  | .startStream => true
  | .stopDrain => true
  | .stopAbort => true
  | .closeStream => true
  | .queryStream => true
  | .submit => true
  | .put => true
  | .clearOverride => true
  | .setArbitration => true
  | .grant => true
  | .completion => true
  | .frameClosed _ bits duration _ => decide (1 ≤ bits) && decide (1 ≤ duration)
  | .lockTimeout _ elapsed => decide (1 ≤ elapsed)
  | .goodRunTimeout _ elapsed => decide (1 ≤ elapsed)
  | .generatorBoundary _ _ => true
  | .assertionEdge => true
  | .deassertionEdge => true
  | .conversion => true

end Sys2Proof
end

