-- ==== Sys2Proof/Tests/Slice0.lean ====
section
/-! SUPPORT. The model's own tests: what WellFormed refuses, single steps with results worked out from the spec, and for
every statement a concrete state that meets its hypotheses. -/

namespace Sys2Proof.Tests

/- One theorem after the other: checked side by side, this many closed evaluations start more threads than the memory limit of
one run allows. -/
set_option Elab.async false

open Sys2Proof.Machine

/-! ## WellFormed: an ill-formed term for each check, which the check refuses -/

/-- No bits on the receive lines. -/
def quiet : RxFrame := Vector.replicate 8 0

theorem test_wellFormed_refuses_frame_without_bits : (Instr.frameClosed .a 0 10 quiet).wellFormed = false := by decide
theorem test_wellFormed_refuses_frame_without_time : (Instr.frameClosed .a 64 0 quiet).wellFormed = false := by decide
theorem test_wellFormed_refuses_lockTimeout_at_once : (Instr.lockTimeout .a 0).wellFormed = false := by decide
theorem test_wellFormed_refuses_goodRunTimeout_at_once : (Instr.goodRunTimeout .b 0).wellFormed = false := by decide
theorem test_wellFormed_accepts : (Instr.frameClosed .a 1 1 quiet).wellFormed = true ∧ Instr.grant.wellFormed = true := by
  decide

/-! ## Decode: the table gives no bits -/

theorem test_no_word_spells_a_command : decodeTableWord 16 0x1234 = none ∧ decodeTableWord 8 0 = none := by decide

/-! ## States built small -/

/-- The next state of a command; a command always has one. -/
def after (c : Instr) (s : State) : State :=
  match exec c s with
  | .next t => t
  | .fault _ => s
  | .refused _ => s

/-- One request waits, the oldest. -/
def asked (s : State) (kind : Byte) (payload : List Byte) : State :=
  { s with port := { s.port with inbound := [{ seq := 1, kind := kind, payload := payload }], lastIn := 1 } }

/-- The last reply or report appended. -/
def lastBody (s : State) : Option EntryBody := s.port.outbound.getLast?.map fun e => e.body

/-- The status of the last reply. -/
def lastStatus (s : State) : Option Status :=
  match lastBody s with
  | some (.reply r) => some r.status
  | _ => none

/-- A domain with a generator, at frame `n`, that has had its first event. -/
def ticking (n : FrameNo) : Domain :=
  { source := .internal, divider := 4, slots := 2, width := 32, state := .locked, counter := n, goodRun := 0,
    lastGood := none, measuring := false, delivers := true,
    record := { latest := .locked, transitions := 0, counter := 0 } }

/-- A domain that follows outside clocks, in the given state and good run. -/
def following (st : DomainState) (run : Nat) : Domain :=
  { source := .external, divider := 1, slots := 2, width := 16, state := st, counter := 7, goodRun := run,
    lastGood := some 100, measuring := true, delivers := false,
    record := { latest := .lost, transitions := 3, counter := 7 } }

/-- Lane 0 enabled in both directions, with markers, gathering. -/
def busyLane : Lane :=
  { Lane.afterReset with txEnable := true, rxEnable := true, txMarker := true, rxMarker := true, gathering := true }

/-- Domain A ticks at frame `n`, lane 0 is enabled on it. -/
def base (n : FrameNo) : State :=
  { State.reset with domA := ticking n, lanes := State.reset.lanes.set 0 busyLane }

/-- The same without the receive marker, so that one open stream alone makes the frame event. -/
def unmarked (n : FrameNo) : State :=
  { base n with lanes := State.reset.lanes.set 0 { busyLane with rxMarker := false } }

/-- A play stream on lane 0 slot 1, 16-bit samples. -/
def player (st : StreamState) (q : List Handle) (ring : List RingEntry) : Stream :=
  { Stream.atPowerOn with
    state := st, generation := 1, depth := 4, map := [(0, 1)], queue := q, ring := ring }

/-- A capture stream on lane 0 slot 1, 16-bit samples. -/
def taker (st : StreamState) (q : List Handle) (backlog : List BacklogEntry) : Stream :=
  { player st q [] with direction := .capture, backlog := backlog }

/-- A play descriptor of stream 0, loaded, of `frames` frames on page 0. -/
def loaded (st : DescState) (frames : Nat) (span : Option FrameNo) (resolved : Nat) : Descriptor :=
  { Descriptor.blank with
    state := st, stream := 0, generation := 1, tag := 0x55, frames := frames, bytes := 2 * frames, pages := [0],
    loaded := 2 * frames, span := span, resolved := resolved, counts := { Counts.zero with sounded := resolved } }

/-- A capture descriptor of stream 1 on page 1. -/
def taking (st : DescState) (frames : Nat) (span : Option FrameNo) (assigned : Nat) : Descriptor :=
  { Descriptor.blank with
    state := st, stream := 1, generation := 1, direction := .capture, tag := 0x66, frames := frames, bytes := 2 * frames,
    pages := [1], span := span, assigned := assigned }

/-- Put stream contexts 0 and 1 and descriptors 0 and 1 in a state. -/
def placed (s : State) (s0 s1 : Stream) (d0 d1 : Descriptor) : State :=
  { s with
    streams := (s.streams.set 0 s0).set 1 s1, descs := (s.descs.set 0 d0).set 1 d1,
    freeList := (List.finRange 256).drop 2 }

/-- A move of stream 0 for position `p` of descriptor 0 at frame `f`. -/
def playFlight (p : Nat) (f : FrameNo) (void : Bool) : Move :=
  { stream := 0, generation := 1, direction := .play, handle := 0, position := p, frame := f, kind := none, mute := false,
    void := void }

/-- A held frame of descriptor 1. -/
def heldAt (p : Nat) (f : FrameNo) (x : Word32) : BacklogEntry :=
  { handle := 1, position := p, frame := f, kind := .held [x] }

/-- Stream 0 plays and stream 1 captures on domain A at frame 64: one frame of stream 0 in the ring, its next one in flight,
two held frames of stream 1. -/
def atWork : State :=
  { placed (base 64) (player .running [0] [.sample [0x1234]]) (taker .running [1] [heldAt 0 62 0xAAAA, heldAt 1 63 0xBBBB])
      (loaded .active 4 (some 63) 2) (taking .active 4 (some 62) 2) with
    inFlight := some (playFlight 2 65 false)
    owners := { Owners.none with txBase := Owners.none.txBase.set 1 (some 0), rxBase := Owners.none.rxBase.set 1 (some 1) } }

/-! ## Single steps against the spec -/

/-- The check value of "123456789" is 0x29B1 (R154). -/
theorem test_checkValue : checkValue [0x31, 0x32, 0x33, 0x34, 0x35, 0x36, 0x37, 0x38, 0x39] = 0x29B1 := by decide +kernel

/-- R151, R166, R172: the pins in reset, in an exchange, in an abandoned one, and between exchanges. The frame's first byte
is 0xA6. -/
theorem test_port_pins :
    State.reset.attnPin false = true ∧ State.reset.attnPin true = false ∧ State.reset.sdoPin false 0 = .notDriven ∧
      (List.range 8).map ((after .csnFalling State.reset).sdoPin false) =
        [true, false, true, false, false, true, true, false].map (fun b => .driven (some b)) ∧
      (after .csnFalling State.reset).sdoPin true 0 = .notDriven ∧
      (after (.pinReset .deasserted true) State.reset).sdoPin false 0 = .driven none ∧
      sdiBytes [true, false, true, false, false, true, true, false, true] = [0xA6] := by decide +kernel

/-- R88: an INTERNAL domain's FCK in a frame of 64 bit clocks, high for the first 32; another domain's is an input. -/
theorem test_fck_shape :
    (base 5).fckPin .a 0 = .driven (some true) ∧ (base 5).fckPin .a 31 = .driven (some true) ∧
      (base 5).fckPin .a 32 = .driven (some false) ∧ (base 5).fckPin .a 63 = .driven (some false) ∧
      (base 5).fckPin .b 0 = .notDriven := by decide +kernel

/-- R132: an asserted line at the end of a reset counts as an edge taken at once. -/
theorem test_pinReset_asserted :
    (after (.pinReset .asserted true) atWork).ovr.latch = true ∧
      (after (.pinReset .asserted true) atWork).claims = [.overrideEvent] ∧
      (after (.pinReset .asserted true) atWork).freeList.length = 256 := by decide +kernel

/-- R152, Table 10-2: after reset the first frame carries the RESET NOTICE, number 1, room 8, kind 0x80, length 1, cause
PIN. -/
theorem test_csnFalling_carries_notice :
    ((after .csnFalling State.reset).port.frame.map fun f => f.bytes.take 9) = some [0xA6, 1, 0, 8, 0, 0x80, 1, 0, 0] := by
  decide +kernel

/-- A frame of IDENTIFY with number 1 and acknowledgement 0, its check value computed. -/
def identifyFrame : List Byte := withCheck [0x5C, 1, 0, 0x01, 0, 0]

/-- An exchange with IDENTIFY in progress after reset, long enough for the notice: 8 + 1 + 2 bytes. -/
def exchanging : State := after .csnFalling State.reset

/-- R157: the request is accepted; R153 and R155 step 5: the notice is SENT and due. -/
theorem test_endOfExchange_accepts :
    (after (.endOfExchange (identifyFrame ++ [0, 0, 0])) exchanging).port.lastIn = 1 ∧
      (after (.endOfExchange (identifyFrame ++ [0, 0, 0])) exchanging).port.due = some 1 := by decide +kernel

/-- R153, R158: a cut frame is not sent, and a bad frame sets LAST_BAD. -/
theorem test_endOfExchange_bad :
    (after (.endOfExchange [0x5C, 1, 0]) exchanging).port.lastBad = true ∧
      (after (.endOfExchange [0x5C, 1, 0]) exchanging).port.due = none := by decide +kernel

theorem test_unknownKind : lastStatus (after .unknownKind (asked State.reset 0x55 [])) = some .unknownKind := by
  decide +kernel

theorem test_identify_length : lastStatus (after .identify (asked State.reset 0x01 [0])) = some .badLength := by
  decide +kernel

theorem test_status_counts :
    (match lastBody (after .status (asked atWork 0x02 [])) with
      | some (.reply { body := .status v, .. }) => (v.freeDescs, v.freePages, v.reports, v.moving)
      | _ => (0, 0, 0, false)) = (46, 254, 1, true) := by decide +kernel

theorem test_resetFull_no_reply :
    lastBody (after .resetFull (asked atWork 0x03 [0])) = some (.report (.resetNotice .request)) := by decide +kernel

/-- R25, R86: the streams are CLOSED with their generation, the move in flight is void. -/
theorem test_resetStreams :
    ((after .resetStreams (asked atWork 0x03 [1])).stream 0).state = .closed ∧
      ((after .resetStreams (asked atWork 0x03 [1])).stream 0).generation = 1 ∧
      ((after .resetStreams (asked atWork 0x03 [1])).inFlight.map fun m => m.void) = some true := by decide +kernel

/-- R89 step 2: a domain with an owned position is busy. -/
theorem test_setDomain_busy :
    lastStatus (after .setDomain (asked atWork 0x10 [0, 2, 4, 2, 32])) = some .domainBusy := by decide +kernel

/-- R90: an INTERNAL domain is LOCKED at once, with a claim (R102). -/
theorem test_setDomain_internal :
    ((after .setDomain (asked State.reset 0x10 [1, 2, 64, 8, 16])).domain .b).state = .locked ∧
      (after .setDomain (asked State.reset 0x10 [1, 2, 64, 8, 16])).claims = [.domainEvent .b] := by decide +kernel

theorem test_queryTime :
    lastBody (after .queryTime (asked (base 64) 0x11 [0])) =
      some (.reply { seq := 1, kind := 0x11, status := .ok, body := .domain .a .locked 64 }) := by decide +kernel

/-- R108 step 3: markers need 32-bit slots in the domain named. -/
theorem test_setLane_markerWidth :
    lastStatus (after .setLane (asked { State.reset with domB := following .locked 0 } 0x12 [3, 1, 1, 0, 1, 0])) =
      some .markerWidth := by decide +kernel

theorem test_setMarker_word :
    ((after .setMarker (asked State.reset 0x13 [7, 0x78, 0x56, 0x34, 0x12])).lane 7).staged = some 0x12345678 := by
  decide +kernel

/-- R8 step 6: a taken role; R9: the first opening has generation 1. -/
theorem test_open_slotTaken :
    lastStatus (after .openStream (asked atWork 0x20 [2, 0, 0, 0, 2, 1, 1, 0, 1])) = some .slotTaken := by decide +kernel
theorem test_open_generation :
    ((after .openStream (asked atWork 0x20 [2, 0, 1, 1, 2, 1, 1, 0, 1])).stream 2).generation = 1 ∧
      (after .openStream (asked atWork 0x20 [2, 0, 1, 1, 2, 1, 1, 0, 1])).txOverlay 0 1 = some 2 := by decide +kernel

/-- A READY play descriptor waits at the head of an IDLE stream with two frames left in the ring. -/
def waitingStart : State :=
  placed (base 64) (player .idle [0] [.fill, .muted]) (taker .idle [1] []) (loaded .ready 4 none 0) (taking .ready 4 none 0)

/-- R33: the first free frame is N + lead. -/
theorem test_start_span :
    ((after .startStream (asked waitingStart 0x22 [0, 1])).desc 0).span = some 66 ∧
      ((after .startStream (asked waitingStart 0x22 [0, 1])).desc 0).state = .waiting := by decide +kernel

/-- R34: a capture descriptor begins with the next frame to be delivered, N − 1. -/
theorem test_start_capture_span :
    ((after .startStream (asked waitingStart 0x22 [1, 1])).desc 1).span = some 63 := by decide +kernel

theorem test_stopDrain_stopping : ((after .stopDrain (asked atWork 0x23 [0, 1, 0])).stream 0).state = .stopping := by
  decide +kernel

/-- R13: an ACTIVE descriptor retires CUT, its unresolved positions unreached. -/
theorem test_stopAbort_cut :
    ((after .stopAbort (asked atWork 0x23 [0, 1, 1])).desc 0).outcome = some .cut ∧
      ((after .stopAbort (asked atWork 0x23 [0, 1, 1])).desc 0).counts.unreached = 2 ∧
      ((after .stopAbort (asked atWork 0x23 [0, 1, 1])).desc 0).endFrame = some 64 := by decide +kernel

theorem test_close_discards :
    ((after .closeStream (asked waitingStart 0x21 [0, 1])).desc 0).outcome = some .discarded ∧
      ((after .closeStream (asked waitingStart 0x21 [0, 1])).stream 0).generation = 1 ∧
      ((after .closeStream (asked waitingStart 0x21 [0, 1])).stream 0).ring = [] := by decide +kernel

theorem test_queryStream_stale : lastStatus (after .queryStream (asked atWork 0x24 [0, 2])) = some .stale := by
  decide +kernel

/-- R28 step 5, R29: a LOADING tail refuses the next SUBMIT of a play stream. -/
theorem test_submit_pages :
    ((after .submit (asked atWork 0x30 [1, 1, 9, 0, 0, 2, 0, 0, 0, 0, 0])).desc 2).pages = [2, 3] ∧
      (after .submit (asked atWork 0x30 [1, 1, 9, 0, 0, 2, 0, 0, 0, 0, 0])).freeList.length = 252 := by decide +kernel

/-- A LOADING descriptor of 4 frames waits for 8 bytes on an IDLE stream. -/
def fillingUp : State :=
  placed (base 64) (player .idle [0] []) Stream.atPowerOn { loaded .loading 4 none 0 with loaded := 6 } Descriptor.blank

theorem test_put_completes :
    ((after .put (asked fillingUp 0x31 [0, 1, 0, 0xCD, 0xAB])).desc 0).state = .ready ∧
      (after .put (asked fillingUp 0x31 [0, 1, 0, 0xCD, 0xAB])).mem = [(6, 0xCD), (7, 0xAB)] := by decide +kernel
theorem test_put_overlength :
    lastStatus (after .put (asked fillingUp 0x31 [0, 1, 0, 1, 2, 3])) = some .overlength := by decide +kernel

theorem test_clearOverride_lineActive :
    lastStatus (after .clearOverride (asked (after .assertionEdge State.reset) 0x40 [])) = some .lineActive := by
  decide +kernel

theorem test_setArbitration :
    (after .setArbitration (asked { State.reset with rotation := [3] } 0x41 [1])).mode = .rotating ∧
      (after .setArbitration (asked { State.reset with rotation := [3] } 0x41 [1])).rotation = List.finRange 12 := by
  decide +kernel

/-- R68, R77: the capture stream's oldest entry leaves its backlog with the grant. -/
theorem test_grant_capture :
    ((after .grant { atWork with inFlight := none, rotation := [1, 0] }).stream 1).backlog = [heldAt 1 63 0xBBBB] := by
  decide +kernel

/-- R72: the lead becomes F − N + 1; R69: a void completion leaves it. -/
theorem test_completion_lead :
    ((after .completion atWork).stream 0).ring.length = 2 ∧ ((after .completion atWork).desc 0).counts.sounded = 3 := by
  decide +kernel
theorem test_completion_void :
    ((after .completion { atWork with inFlight := some (playFlight 2 65 true) }).stream 0).ring.length = 1 := by
  decide +kernel

/-- R92: the sixteenth good frame of 32 bits locks, and commits frame 7. -/
theorem test_frameClosed_locks :
    ((after (.frameClosed .b 32 90 quiet) { State.reset with domB := following .acquiring 15 }).domain .b).state = .locked ∧
      ((after (.frameClosed .b 32 90 quiet) { State.reset with domB := following .acquiring 15 }).domain .b).counter = 8 :=
  by decide +kernel

/-- R93: a frame of 31 bits loses the lock and the counter stands. -/
theorem test_frameClosed_loses :
    ((after (.frameClosed .b 31 90 quiet) { State.reset with domB := following .locked 0 }).domain .b).state = .lost ∧
      ((after (.frameClosed .b 31 90 quiet) { State.reset with domB := following .locked 0 }).domain .b).counter = 7 := by
  decide +kernel

theorem test_lockTimeout :
    ((after (.lockTimeout .b 200) { State.reset with domB := following .locked 0 }).domain .b).state = .lost ∧
      ((after (.lockTimeout .b 199) { State.reset with domB := following .locked 0 }).domain .b).state = .locked := by
  decide +kernel

theorem test_goodRunTimeout :
    ((after (.goodRunTimeout .b 200) { State.reset with domB := following .lost 9 }).domain .b).goodRun = 0 ∧
      ((after (.goodRunTimeout .b 200) { State.reset with domB := following .lost 9 }).domain .b).lastGood = none := by
  decide +kernel

/-- Stream 0 alone plays, so that one item makes the frame event. -/
def alone : State :=
  { placed ((unmarked 96).modLane 0 fun ln => { ln with staged := some 0x80000000 })
      (player .running [0] [.sample [0x1234]]) Stream.atPowerOn (loaded .active 4 (some 95) 2) Descriptor.blank with
    owners := { Owners.none with txBase := Owners.none.txBase.set 1 (some 0) } }

/-- R112, R114, R116, R117: slot 0 is silence with the new word's top bit as its marker bit; slot 1 has the sample in its top
16 bits. -/
theorem test_generatorBoundary_slots :
    ((after (.generatorBoundary .a quiet) alone).lane 0).txFrame = some [1, 0x12340000] ∧
      ((after (.generatorBoundary .a quiet) alone).stream 0).ring = [] := by decide +kernel

/-- R38, R73: with nothing in the ring an ACTIVE descriptor's due position is skipped. -/
theorem test_generatorBoundary_skips :
    ((after (.generatorBoundary .a quiet)
      { alone with streams := alone.streams.set 0 (player .running [0] []),
                   descs := alone.descs.set 0 (loaded .active 4 (some 94) 2) }).desc 0).counts.skipped = 1 := by
  decide +kernel

theorem test_assertionEdge_mutes :
    ((after .assertionEdge atWork).inFlight.map fun m => m.mute) = some true ∧
      (after .assertionEdge atWork).ovr.latch = true := by decide +kernel

theorem test_deassertionEdge_keeps_latch :
    (after .deassertionEdge (after .assertionEdge State.reset)).ovr.latch = true ∧
      (after .deassertionEdge (after .assertionEdge State.reset)).ovr.edges = 2 ∧
      (after .deassertionEdge (after .assertionEdge State.reset)).claims = [.overrideEvent] := by decide +kernel

/-- R128: the report carries the edges, which then return to 0. -/
theorem test_conversion_override :
    lastBody (after .conversion (after .assertionEdge State.reset)) = some (.report (.overrideEvent .asserted 1 true)) ∧
      (after .conversion (after .assertionEdge State.reset)).ovr.edges = 0 := by decide +kernel

/-! ## Witnesses: for every statement, states and operands that meet its hypotheses

The commands and their queue, the resets -/

theorem witness_StepRunsFrontCommand :
    ({ State.reset with pending := [.grant] } : State).pending = .grant :: [] ∧ State.reset.pending = [] := ⟨rfl, rfl⟩

theorem witness_FullResetRequestHasNoReply :
    (asked atWork 0x03 [0]).port.inbound = [{ seq := 1, kind := 0x03, payload := [0] }] := rfl

theorem witness_StreamsReset_scopes :
    (asked atWork 0x03 [1]).port.inbound = [{ seq := 1, kind := 0x03, payload := [1] }] ∧
      (asked atWork 0x03 [2]).port.inbound = [{ seq := 1, kind := 0x03, payload := [2] }] ∧ (2 : Byte) ≠ 0 ∧ (2 : Byte) ≠ 1 := by
  decide +kernel

/-! The Exchange Port -/

/-- The notice has been carried whole and waits for its acknowledgement; the next exchange has begun. -/
def noticeDue : State := after .csnFalling (after (.endOfExchange (List.replicate 11 0)) exchanging)

/-- A NOP frame with acknowledgement `a`. -/
def nopFrame (a : Byte) : List Byte := withCheck [0x5C, 0, a, 0, 0, 0]

/-- Eight requests wait and a frame is in progress. -/
def crowded : State :=
  after .csnFalling { State.reset with port := { State.reset.port with
    inbound := [1, 2, 3, 4, 5, 6, 7, 8].map fun q => { seq := q, kind := 0x02, payload := [] }, lastIn := 8 } }

theorem witness_OutboundFrame_idle :
    let s := after (.endOfExchange (List.replicate 11 0)) exchanging
    s.port.csnLow = false ∧ ∀ e ∈ s.port.outbound, e.sent = true := by decide +kernel
theorem witness_OutboundFrame_entry :
    State.reset.port.csnLow = false ∧ State.reset.port.outbound =
      [] ++ { seq := 1, body := .report (.resetNotice .pin), sent := false, carried := false } :: [] := by decide +kernel
theorem witness_OutboundFrame_fixed :
    exchanging.port.frame.isSome = true ∧ exchanging.port.csnLow = true ∧ exec .grant exchanging = .next (after .grant exchanging) :=
  ⟨by decide +kernel, by decide +kernel, rfl⟩

theorem witness_InboundFramesJudged :
    (List.replicate 1040 (0 : Byte)).length ≤ 1040 ∧ judge identifyFrame = .good 1 0 1 [] ∧
      judge [0x5C, 1, 0, 1, 0, 0, 0, 0] = .bad ∧ judge [] = .noFrame := by decide +kernel

/-- The port invariant from its parts, each of which the kernel can evaluate. -/
theorem portOk_of (s : State)
    (h : s.port.inbound.length + s.replyEntries ≤ 8 ∧ s.reportEntries ≤ 16 ∧
      seqRun (s.port.inbound.map fun r => r.seq) s.port.lastIn = true ∧
      seqRun (s.port.outbound.map fun e => e.seq) s.port.lastOut = true ∧
      (∀ r ∈ s.port.inbound, r.kind ≠ nopKind ∧ r.payload.length ≤ 1040) ∧
      (s.port.outbound.dropWhile fun e => e.sent).all (fun e => !e.sent) = true ∧
      (s.port.outbound.dropWhile fun e => e.carried).all (fun e => !e.carried) = true ∧
      (∀ e ∈ s.port.outbound, e.sent = true → e.carried = true) ∧
      (s.port.due.all fun q => s.port.outbound.any fun e => decide (e.seq = q) && e.sent) = true ∧
      (s.port.frame.all fun f => s.port.csnLow && f.carries.all fun q => s.cursor.any fun e => decide (e.seq = q)) = true ∧
      (s.port.lastBad && s.port.lastSeq || s.port.lastBad && s.port.lastFull || s.port.lastSeq && s.port.lastFull) = false) :
    s.PortOk := by
  obtain ⟨a, b, c, d, e, f, g, i, j, k, l⟩ := h
  refine ⟨a, b, c, d, e, f, g, i, ?_, ?_, l⟩
  · intro q hq
    rw [hq] at j
    simpa using j
  · intro x hx
    rw [hx] at k
    simp only [Option.all_some, Bool.and_eq_true] at k
    refine ⟨k.1, fun q hq => ?_⟩
    rw [hq] at k
    simpa [Option.any_eq_true] using k.2

theorem witness_port_noticeDue : noticeDue.PortOk := portOk_of _ (by decide +kernel)
theorem witness_port_crowded : crowded.PortOk := portOk_of _ (by decide +kernel)

/-- The frame that a state has in progress. -/
def inProgress (s : State) : OutFrame := s.port.frame.getD { bytes := [], carries := none }

theorem witness_Acknowledgement :
    noticeDue.port.frame = some (inProgress noticeDue) ∧ judge (nopFrame 1) = .good 0 1 0 [] ∧
      judge (nopFrame 5) = .good 0 5 0 [] ∧
      (noticeDue.marked (inProgress noticeDue) (nopFrame 1)).map (fun e => (e.carried, e.seq)) = [(true, 1)] := by
  decide +kernel

theorem witness_DueEntryGoesBack :
    noticeDue.port.due = some 1 ∧
      ((after (.endOfExchange (nopFrame 5)) noticeDue).port.outbound.map fun e => (e.seq, e.sent)) = [(1, false)] ∧
      (after (.endOfExchange (nopFrame 1)) noticeDue).port.outbound = [] := by decide +kernel

theorem witness_RequestOfGoodFrame_nop_and_number :
    judge (nopFrame 0) = .good 0 0 0 [] ∧ judge identifyFrame = .good 1 0 1 [] ∧ noticeDue.port.lastIn = 0 ∧
      judge (withCheck [0x5C, 0, 0, 2, 0, 0]) = .good 0 0 2 [] ∧ 0 < noticeDue.room := by decide +kernel
theorem witness_RequestOfGoodFrame_duplicate_and_full :
    crowded.port.frame = some (inProgress crowded) ∧ crowded.port.lastIn = 8 ∧ crowded.room = 0 ∧
      judge (withCheck [0x5C, 8, 0, 2, 0, 0]) = .good 8 0 2 [] ∧ judge (withCheck [0x5C, 9, 0, 2, 0, 0]) = .good 9 0 2 [] := by
  decide +kernel

theorem witness_EndOfExchange :
    exchanging.port.csnLow = true ∧ exchanging.port.frame = some (inProgress exchanging) ∧
      ({ exchanging with port := { exchanging.port with frame := none } } : State).port.csnLow = true ∧
      judge [0x5C] = .bad ∧ judge [0] = .noFrame := by decide +kernel

theorem witness_Identify : (asked State.reset 0x01 []).port.inbound = [{ seq := 1, kind := 0x01, payload := [] }] := rfl
theorem witness_Status : (asked atWork 0x02 []).port.inbound = [{ seq := 1, kind := 0x02, payload := [] }] := rfl

theorem witness_MisfitRequests :
    (takings.map fun k => k.fits (List.replicate 5000 0)) = List.replicate 17 false ∧
      (∀ k ∈ takings, (0x55 : Byte) ≠ k.kind) ∧ (0x55 : Byte) ≠ 0 := by decide +kernel

theorem witness_TakenRequest :
    (∀ k ∈ takings, (0x55 : Byte) ≠ k.kind) ∧ (takings.map fun k => k.kind).length = 17 ∧
      exec .status (asked atWork 0x02 []) = .next (after .status (asked atWork 0x02 [])) ∧
      ([0, 1, 1] : List Byte).getD 2 0 = 1 ∧ ([0, 1, 0] : List Byte).getD 2 0 = 0 ∧
      lastStatus (after .resetStreams (asked atWork 0x03 [1])) = some .ok :=
  ⟨by decide +kernel, by decide, rfl, rfl, rfl, by decide +kernel⟩

/-! Clock Domains and Lanes -/

theorem witness_SetDomain_passes :
    domainOf 0 = some .a ∧ sourceOf 1 = some .external ∧
      ∀ l k, ((base 64).lane l).domain = .a →
        (base 64).txBase l k = none ∧ (base 64).txOverlay l k = none ∧ (base 64).rxBase l k = none := by decide +kernel
theorem witness_SetDomain_refusals :
    domainOf 2 = none ∧ sourceOf 3 = none ∧ (atWork.txBase 0 1).isSome = true ∧ ((base 64).lane 0).txMarker = true := by
  decide +kernel

theorem witness_QueryTime :
    (asked (base 64) 0x11 [2]).port.inbound = [{ seq := 1, kind := 0x11, payload := [2] }] ∧ (2 : Byte) ≠ 0 ∧ (2 : Byte) ≠ 1 := by
  decide +kernel

/-- The promises of a domain record from parts that the kernel can evaluate. -/
theorem domainOk_of (dm : Domain)
    (h : dm.legal = true ∧ (1 ≤ dm.divider ∧ dm.divider ≤ 64) ∧ dm.slots ∈ [2, 4, 8] ∧ dm.width ∈ [16, 24, 32] ∧
      (dm.goodRun < 16 ∧ (dm.goodRun ≠ 0 → dm.state = .acquiring ∨ dm.state = .lost)) ∧
      (dm.source ≠ .external → dm.lastGood = none ∧ dm.measuring = false) ∧
      (dm.source = .external → dm.state = .locked → dm.lastGood.isSome = true ∧ dm.measuring = true) ∧
      (dm.delivers = true → dm.state = .locked) ∧ dm.record.transitions ≤ 65535 ∧
      (dm.record.latest = .locked ↔ dm.state = .locked)) : dm.Ok :=
  let ⟨a, b, c, d, e, f, g, i, j, k⟩ := h
  ⟨a, b, c, d, e, f, g, i, j, k⟩

theorem witness_domains : atWork.DomainsOk :=
  ⟨domainOk_of _ (by decide +kernel), domainOk_of _ (by decide +kernel)⟩

theorem witness_lanes : atWork.LanesOk := by
  have h : ∀ l, ((atWork.lane l).txMarker || (atWork.lane l).rxMarker) = true → (atWork.domain (atWork.lane l).domain).width = 32 := by
    decide +kernel
  have g : ∀ l, (atWork.lane l).gathering = true →
      (atWork.lane l).rxEnable = true ∧ (atWork.domain (atWork.lane l).domain).state = .locked := by decide +kernel
  have f : ∀ l, (atWork.lane l).txFrame = none := by decide +kernel
  have a : ∀ l, (atWork.lane l).assembly = none := by decide +kernel
  exact fun l => ⟨h l, by simp [f l], g l, by simp [a l]⟩

theorem witness_Counter :
    exec (.generatorBoundary .a quiet) atWork = .next (after (.generatorBoundary .a quiet) atWork) := rfl

theorem witness_SixteenthGoodFrame :
    (following .lost 14).source = .external ∧ (following .lost 14).measuring = true ∧ (following .lost 14).goodRun + 1 ≠ 16 ∧
      (following .acquiring 15).goodRun + 1 = 16 ∧ (following .lost 14).slots * (following .lost 14).width = 32 := by decide

theorem witness_LossOfLock :
    (following .locked 0).state = .locked ∧ (following .locked 0).lastGood = some 100 ∧ 2 * 100 ≤ 200 ∧ 199 < 2 * 100 ∧
      (33 : Nat) ≠ (following .locked 0).slots * (following .locked 0).width ∧ (ticking 3).lastGood = none := by decide

/-- Domain B follows outside clocks and is LOCKED. -/
def locked : State := { State.reset with domB := following .locked 0 }

theorem witness_frameEvent_internal : atWork.takesFrameEvent (.generatorBoundary .a quiet) .a quiet :=
  .inl ⟨rfl, by decide +kernel⟩
theorem witness_frameEvent_external : locked.takesFrameEvent (.frameClosed .b 32 90 quiet) .b quiet :=
  .inr ⟨32, 90, rfl, by decide +kernel, by decide +kernel, by decide +kernel, by decide +kernel⟩

/-- The places of the descriptors from parts that the kernel can evaluate. -/
theorem placesOk_of (s : State)
    (h : (∀ h i, h ∈ (s.stream i).queue ↔ (s.desc h).state.live = true ∧ (s.desc h).stream = i) ∧
      (∀ i, (s.stream i).queue.Nodup) ∧ (∀ h, Claim.done h ∈ s.claims ↔ (s.desc h).state = .retired) ∧
      ∀ h, s.claims.count (Claim.done h) ≤ 1) : s.PlacesOk :=
  ⟨h.1, h.2.1, h.2.2.1, h.2.2.2⟩

/-- At work, but the next event of domain A is the first of its lock. -/
def firstOfLock : State := { atWork with domA := { ticking 64 with delivers := false } }

theorem witness_FirstEvent_internal :
    firstOfLock.PlacesOk ∧ firstOfLock.takesFrameEvent (.generatorBoundary .a quiet) .a quiet ∧
      (firstOfLock.domain .a).delivers = false ∧ (firstOfLock.stream 1).direction = .capture :=
  ⟨placesOk_of _ (by decide +kernel), .inl ⟨rfl, by decide +kernel⟩, by decide +kernel, by decide +kernel⟩
theorem witness_FirstEvent_external :
    ({ State.reset with domB := following .lost 15 } : State).PlacesOk ∧ (following .lost 15).goodRun = 15 ∧
      (following .lost 15).measuring = true :=
  ⟨placesOk_of _ (by decide +kernel), rfl, rfl⟩

/-- `alone` on an EXTERNAL domain A that the next good frame locks, at frame 96. -/
def locking : State :=
  { alone.modLane 0 (fun ln => { ln with gathering := false }) with
    domA := { following .lost 15 with counter := 96, width := 32 } }

theorem witness_locksAtEvent :
    locking.PlacesOk ∧ locking.makesFrameEvent (.frameClosed .a 64 100 quiet) .a quiet ∧
      (locking.lane 0).txEnable = true ∧ (locking.lane 0).rxEnable = true ∧ (locking.lane 0).gathering = false ∧
      (locking.lane 0).staged = some 0x80000000 ∧ (locking.stream 0).ring = .sample [0x1234] :: [] :=
  ⟨placesOk_of _ (by decide +kernel), .inr ⟨100, rfl, by decide +kernel, by decide +kernel, by decide +kernel, by decide +kernel⟩,
    by decide +kernel, by decide +kernel, by decide +kernel, by decide +kernel, by decide +kernel⟩

/-- R95, R73, R106, R107, R114, R117: the edge that locks sends the ring's frame 96 with the staged word taken up, and begins to
gather. -/
theorem test_lockingEdge_is_a_frame_event :
    let t := after (.frameClosed .a 64 100 quiet) locking
    (t.domain .a).state = .locked ∧ (t.domain .a).counter = 97 ∧ (t.domain .a).record.transitions = 4 ∧
      (t.lane 0).txFrame = some [1, 0x12340000] ∧ (t.lane 0).current = 0x80000000 ∧ (t.lane 0).staged = none ∧
      (t.lane 0).gathering = true ∧ (t.stream 0).ring = [] ∧ (t.stream 0).sounding = true ∧
      t.claims = [.domainEvent .a] := by decide +kernel

theorem witness_SetLane :
    laneOf 7 = some 7 ∧ laneOf 8 = none ∧ domainOf 0 = some .a ∧ flagOf 1 = some true ∧ flagOf 0 = some false ∧
      flagOf 2 = none ∧ ((base 64).domain .a).width = 32 ∧ ((locked).domain .b).width ≠ 32 ∧
      (∀ k, atWork.txBase 7 k = none ∧ atWork.txOverlay 7 k = none ∧ atWork.rxBase 7 k = none) ∧
      (atWork.txBase 0 1).isSome = true := by decide +kernel

theorem witness_SetMarker : (7 : Byte).toNat = (7 : LaneNo).val ∧ 8 ≤ (8 : Byte).toNat := by decide

/-! The Stream Table -/

theorem witness_StreamRequests :
    (∀ k ∈ streamTakings, k.takes (0 :: 1 :: (match k.command with
      | .submit => List.replicate 9 0
      | .put => [0, 0]
      | .stopDrain => [0]
      | .stopAbort => [1]
      | _ => [])) = true) ∧
      (∀ k ∈ streamTakings, k.accepts Stream.atPowerOn = false) ∧
      (∀ k ∈ streamTakings, k.accepts (player .idle [] []) = true) ∧ 12 ≤ (12 : Byte).toNat ∧
      (11 : Byte).toNat = (11 : StreamNo).val := by decide +kernel

/-- An OPEN of stream 2 as an overlay on lane 0 slot 1. -/
def overlayOpen : List Byte := [2, 0, 1, 1, 2, 1, 1, 0, 1]

/-- What its fields say. -/
def overlayFields : Opening :=
  { direction := .play, cls := .override, overlay := true, width := 2, depth := 1, map := [(0, 1)] }

theorem witness_Open :
    overlayOpen = [2, 0, 1, 1, 2, 1, 1] ++ [((0 : Byte), (1 : Byte))].flatMap (fun e => [e.1, e.2]) ∧
      ([(0, 1)] : List (LaneNo × SlotNo)).map (fun e => (e.1.val, e.2.val)) =
        [((0 : Byte), (1 : Byte))].map (fun e => (e.1.toNat, e.2.toNat)) ∧
      (atWork.stream 2).state = .closed ∧ firstFailure (atWork.openingChecks overlayFields) = none ∧
      lastStatus (after .openStream (asked atWork 0x20 overlayOpen)) = some .ok ∧
      lastStatus (after .openStream (asked atWork 0x20 [2, 0, 0, 1, 2, 1, 1, 0, 1])) = some .badField ∧
      lastStatus (after .openStream (asked atWork 0x20 [2, 0, 1, 1, 2, 1, 2, 0, 1, 0, 1])) = some .badField := by decide +kernel
theorem witness_Open_refusals :
    firstFailure (State.reset.openingChecks overlayFields) = some .domainOff ∧
      firstFailure (atWork.openingChecks { overlayFields with overlay := false }) = some .slotTaken ∧
      firstFailure (atWork.openingChecks { overlayFields with map := [(1, 1)] }) = some .laneDisabled ∧
      firstFailure (atWork.openingChecks { overlayFields with map := [(0, 2)] }) = some .badField ∧
      firstFailure ((after .setLane (asked atWork 0x12 [1, 1, 1, 1, 0, 0])).openingChecks
        { overlayFields with map := [(0, 1), (1, 1)] }) = some .domainMismatch := by decide +kernel

theorem witness_Start :
    (waitingStart.stream 0).state = .idle ∧ (waitingStart.stream 0).generation = 1 ∧
      (∀ h ∈ (fillingUp.stream 0).queue.head?, (fillingUp.desc h).state = .loading) ∧ (fillingUp.stream 0).state = .idle := by
  decide +kernel

/-- `waitingStart` with AT starts: descriptor 0 at `p`, descriptor 1 at `c`. -/
def scheduled (p c : FrameNo) : State :=
  placed (base 64) (player .idle [0] []) (taker .idle [1] []) { loaded .ready 4 none 0 with start := .at p }
    { taking .ready 4 none 0 with start := .at c }

theorem witness_HeadEligible :
    (scheduled 62 60).stream 0 = player .idle [0] [] ∧ ((scheduled 62 60).desc 0).state = .ready ∧
      ((scheduled 62 60).desc 0).counts = Counts.zero ∧ ((scheduled 62 60).desc 0).gone = 0 ∧
      ((64 : FrameNo) - 62).toNat = 2 ∧ ((63 : FrameNo) - 60).toNat = 3 ∧ ((64 : FrameNo) - 60).toNat = 4 ∧
      ((64 : FrameNo) - 64).toNat = 0 ∧ 2 ^ 31 < ((64 : FrameNo) - 65).toNat := by decide +kernel
/-- T exactly 2^31 frames ahead of the first frame open to the stream: every position of a play descriptor is late, none of a
capture descriptor. -/
theorem witness_HeadEligible_farAhead :
    ((64 : FrameNo) - 0x80000040).toNat = 2 ^ 31 ∧ ((63 : FrameNo) - 0x8000003F).toNat = 2 ^ 31 ∧
      ((after .startStream (asked (scheduled 0x80000040 0) 0x22 [0, 1])).desc 0).outcome = some .late ∧
      ((after .startStream (asked (scheduled 0 0x8000003F) 0x22 [1, 1])).desc 1).state = .waiting := by decide +kernel

theorem witness_StopDrain :
    (atWork.stream 0).state = .running ∧ (atWork.stream 0).queue ≠ [] ∧ (player .running [] []).queue = [] ∧
      (fillingUp.stream 0).state = .idle ∧ 2 ≤ (2 : Byte).toNat := by decide +kernel

theorem witness_StopAbort :
    (atWork.stream 0).state ≠ .closed ∧ (atWork.stream 0).queue.Nodup ∧ (atWork.stream 0).direction = .play ∧
      (∀ h ∈ (atWork.stream 0).queue, (atWork.desc h).direction = .play) := by decide +kernel
/-- Two captured bytes stand in the first page of a descriptor of two pages. -/
def partWritten : State :=
  placed (base 64) Stream.atPowerOn (taker .running [1] [heldAt 1 63 0xBBBB]) Descriptor.blank
    { taking .active 400 (some 62) 2 with pages := [1, 9], resolved := 1, written := 2 }

theorem witness_StopAbort_capture :
    (partWritten.stream 1).direction = .capture ∧ (partWritten.stream 1).queue.Nodup ∧
      (∀ h ∈ (partWritten.stream 1).queue, (partWritten.desc h).direction = .capture ∧
        (partWritten.desc h).gone = (partWritten.desc h).written / 512 ∧
        (partWritten.desc h).written ≤ 512 * (partWritten.desc h).pages.length) ∧
      (after .stopAbort (asked partWritten 0x23 [1, 1, 1])).claims =
        [.data { stream := 1, generation := 1, handle := 1, tag := 0x66, offset := 0, count := 2, page := 1 }, .done 1] ∧
      (after .stopAbort (asked partWritten 0x23 [1, 1, 1])).freeList.getLast? = some 9 := by decide +kernel

theorem witness_Close :
    (waitingStart.stream 0).state = .idle ∧ (waitingStart.stream 0).queue.Nodup ∧
      (∀ h ∈ (waitingStart.stream 0).queue, (waitingStart.desc h).eligible = false ∧ (waitingStart.desc h).resolved = 0 ∧
        (waitingStart.desc h).written = 0) := by decide +kernel

theorem witness_QueryStream : (atWork.stream 1).state ≠ .closed ∧ (atWork.stream 1).generation = 1 := by decide +kernel

/-! The Descriptor Pool and the Transfer Engine -/

theorem witness_Submit :
    (waitingStart.desc 2).state = .free ∧ (∀ h', h' < 2 → (waitingStart.desc h').state ≠ .free) ∧
      (waitingStart.stream 0).queue.length < (waitingStart.stream 0).depth ∧
      (8192 * (1 * 2) + 511) / 512 ≤ waitingStart.freeList.length ∧
      (∀ h ∈ (waitingStart.stream 0).queue.getLast?, (waitingStart.desc h).state ≠ .loading) ∧
      (∀ k ∈ (waitingStart.stream 0).queue.head?, (waitingStart.desc k).spent = false) ∧
      (waitingStart.stream 0).state = .idle ∧ (fillingUp.desc 0).state = .loading := by decide +kernel
theorem witness_Submit_running :
    (atWork.stream 0).state = .running ∧ (atWork.stream 0).direction = .play ∧
      (∀ h ∈ (atWork.stream 0).queue.head?, (atWork.desc h).state ≠ .ready ∧ (atWork.desc h).spent = false) ∧
      (atWork.desc 2).state = .free ∧ (∀ h', h' < 2 → (atWork.desc h').state ≠ .free) := by decide +kernel
/-- Capture stream 1 runs with descriptor 1, of 4 frames from 62, assigned `n` of them; descriptor 0 is LOADING elsewhere. -/
def assignedTo (n : Nat) : State :=
  placed (base 64) (player .idle [0] []) (taker .running [1] []) (loaded .loading 4 none 0)
    { taking .active 4 (some 62) n with resolved := n - 1 }

/-- One descriptor ahead is open, or fully assigned, or none is there: `first` is 66, or 63. -/
theorem witness_Submit_capture :
    ((assignedTo 2).stream 1).state = .running ∧ ((assignedTo 2).stream 1).queue = [] ++ 1 :: [] ∧
      ((assignedTo 2).desc 1).fullyAssigned = false ∧ ((assignedTo 2).desc 1).state ≠ .ready ∧
      ((assignedTo 4).desc 1).fullyAssigned = true ∧ ((assignedTo 4).desc 1).spent = false ∧
      (2 : Handle) ∉ ((assignedTo 4).stream 1).queue ∧ ((assignedTo 4).desc 2).state = .free ∧
      (1 ≤ ((62 : FrameNo) + 4 - 63).toNat ∧ ((62 : FrameNo) + 4 - 63).toNat < 2 ^ 31) ∧
      ((66 : FrameNo) - 66).toNat = 0 ∧ ((66 : FrameNo) - 64).toNat = 2 ∧ ((66 : FrameNo) - 50).toNat = 16 ∧
      2 ^ 31 ≤ ((66 : FrameNo) - 70).toNat ∧ ((66 : FrameNo) - 0x80000042).toNat = 2 ^ 31 ∧ (taker .running [] []).queue = [] := by decide +kernel
theorem witness_Submit_refusals :
    firstFailure [((0 : Nat) == 1, Status.badField)] = some .badField ∧
      lastStatus (after .submit (asked fillingUp 0x30 [0, 1, 0, 0, 1, 0, 0, 0, 0, 0, 0])) = some .stillLoading ∧
      lastStatus (after .submit (asked { waitingStart with freeList := [] } 0x30 [0, 1, 0, 0, 1, 0, 0, 0, 0, 0, 0])) =
        some .pagesShort := by decide +kernel

theorem witness_Put :
    (fillingUp.stream 0).direction = .play ∧ 0 ∈ (fillingUp.stream 0).queue ∧ (fillingUp.desc 0).state = .loading ∧
      (fillingUp.desc 0).loaded + 2 ≤ (fillingUp.desc 0).bytes ∧ (fillingUp.stream 0).state = .idle ∧
      (∀ k ∈ (fillingUp.stream 0).queue.head?, (fillingUp.desc k).state ≠ .ready ∧ (fillingUp.desc k).spent = false) ∧
      fillingUp.mem.wf = true ∧ (fillingUp.desc 0).pages.Nodup ∧
      (fillingUp.desc 0).pages.length = ((fillingUp.desc 0).bytes + 511) / 512 := by decide +kernel
/-- `fillingUp` with its stream STOPPING and an AT start. -/
def fillingHead (T : FrameNo) : State :=
  placed (base 64) (player .stopping [0] []) Stream.atPowerOn
    { loaded .loading 4 none 0 with loaded := 6, start := .at T } Descriptor.blank

theorem witness_Put_head :
    ((fillingHead 62).stream 0).state = .stopping ∧ ((fillingHead 62).stream 0).queue = 0 :: [] ∧
      ((fillingHead 62).desc 0).loaded + 2 = ((fillingHead 62).desc 0).bytes ∧ ((fillingHead 62).desc 0).resolved = 0 ∧
      ((fillingHead 62).desc 0).direction = .play ∧ ((fillingHead 62).desc 0).counts = Counts.zero ∧
      ((fillingHead 62).desc 0).gone = 0 ∧ ((64 : FrameNo) - 64).toNat = 0 ∧ ((64 : FrameNo) - 62).toNat = 2 ∧
      ((64 : FrameNo) - 60).toNat = 4 ∧ 2 ^ 31 < ((64 : FrameNo) - 65).toNat ∧
      ((64 : FrameNo) - 0x80000040).toNat = 2 ^ 31 ∧ ((after .put (asked (fillingHead 62) 0x31 [0, 1, 0, 1, 2])).desc 0).counts.late = 2 ∧
      ((after .put (asked (fillingHead 60) 0x31 [0, 1, 0, 1, 2])).stream 0).state = .idle := by decide +kernel
theorem witness_Put_refusals :
    lastStatus (after .put (asked fillingUp 0x31 [1, 0, 0, 1])) = some .badState ∧
      lastStatus (after .put (asked fillingUp 0x31 [0, 1, 48, 1])) = some .badField ∧
      lastStatus (after .put (asked fillingUp 0x31 [0, 1, 47, 1])) = some .notLoading := by decide +kernel

/-- The engine is idle; both streams request. -/
def bothAsk : State := { atWork with inFlight := none }

theorem witness_Grant :
    bothAsk.inFlight = none ∧ bothAsk.requests 0 = true ∧ bothAsk.requests 1 = true ∧
      (∀ j, bothAsk.requests j = true → j = 0 ∨ j = 1) ∧ bothAsk.rotation.idxOf 0 < bothAsk.rotation.idxOf 1 ∧
      (bothAsk.stream 0).cls = (bothAsk.stream 1).cls ∧ (bothAsk.stream 0).queue = [0] ∧
      (bothAsk.desc 0).span = some 63 ∧ (∀ i, State.reset.requests i = false) := by decide +kernel
theorem witness_Grant_rotation : bothAsk.RotationOk :=
  ⟨by rw [show bothAsk.rotation = List.finRange 12 by rfl], fun _ => rfl⟩
theorem witness_Grant_capture :
    ({ bothAsk with rotation := [1, 0] } : State).arbitrate = some 1 ∧ (bothAsk.stream 1).backlog.length = 2 := by
  decide +kernel

theorem witness_PlayCompletion :
    atWork.inFlight = some (playFlight 2 65 false) ∧ (atWork.stream 0).queue = 0 :: [] ∧
      (playFlight 2 65 false).position = (atWork.desc 0).resolved ∧
      (atWork.desc 0).resolved + 1 < (atWork.desc 0).frames ∧ (playFlight 2 65 false).kind = none ∧
      ((65 : FrameNo) - (atWork.domain .a).counter).toNat = 1 ∧ (atWork.stream 0).ring.length ≤ 1 ∧
      (playFlight 2 65 true).void = true := by decide +kernel
/-- The move of descriptor 0's last position is in flight, with descriptor 2 READY behind it or nothing. -/
def finalMove (st : StreamState) (behind : List Handle) : State :=
  { placed (base 64) (player st (0 :: behind) [.sample [0x1234]]) Stream.atPowerOn (loaded .active 4 (some 62) 3)
      Descriptor.blank with
    descs := ((base 64).descs.set 0 (loaded .active 4 (some 62) 3)).set 2 { loaded .ready 4 none 0 with pages := [1] }
    inFlight := some (playFlight 3 65 false) }

theorem witness_PlayCompletion_last :
    ((finalMove .running []).desc 0).resolved + 1 = ((finalMove .running []).desc 0).frames ∧
      (after .completion (finalMove .running [])).claims = [.done 0] ∧
      ((after .completion (finalMove .running [])).desc 0).outcome = some .complete ∧
      ((after .completion (finalMove .running [])).desc 0).endFrame = some 65 ∧
      (after .completion (finalMove .running [])).freeList.getLast? = some 0 ∧
      (after .completion (finalMove .stopping [])).claims = [.done 0, .streamEvent 0] ∧
      ((after .completion (finalMove .stopping [])).stream 0).state = .idle := by decide +kernel
theorem witness_PlayCompletion_behind :
    ((finalMove .running [2]).stream 0).queue = 0 :: 2 :: [] ∧ ((finalMove .running [2]).desc 2).state = .ready ∧
      ((finalMove .running [2]).desc 2).start = .immediate ∧ ((finalMove .running [2]).desc 2).resolved = 0 ∧
      ((after .completion (finalMove .running [2])).desc 2).span = some 66 := by decide +kernel

/-- The capture move of the oldest entry is in flight. -/
def capturing : State := after .grant { atWork with inFlight := none, rotation := [1, 0] }

theorem witness_CaptureCompletion :
    (capturing.inFlight.map fun m => (m.stream, m.handle, m.position, m.void, m.kind)) =
        some (1, 1, 0, false, some (.held [0xAAAA])) ∧
      (capturing.stream 1).queue = 1 :: [] ∧ (capturing.desc 1).resolved = 0 ∧
      (capturing.desc 1).resolved + 1 < (capturing.desc 1).frames ∧ capturing.nextEligible 1 = none ∧
      (capturing.desc 1).bytes / (capturing.desc 1).frames = (capturing.stream 1).map.length * (capturing.stream 1).width ∧
      (capturing.desc 1).pages.Nodup ∧ (capturing.desc 1).pages.length = ((capturing.desc 1).bytes + 511) / 512 ∧
      capturing.mem.wf = true ∧ (0 * 2 + 2) / 512 ≤ (capturing.desc 1).gone := by decide +kernel
/-- Position 255 of a descriptor of 400 frames ends page entry 0. -/
def pageEnd : State :=
  { capturing with
    descs := capturing.descs.set 1 { taking .active 400 (some 0) 257 with pages := [1, 9], resolved := 255, written := 510 }
    inFlight := some { stream := 1, generation := 1, direction := .capture, handle := 1, position := 255, frame := 255,
                       kind := some .lostZero, mute := false, void := false } }

theorem witness_CaptureCompletion_page :
    (255 * 2 + 2) / 512 = 1 ∧ (pageEnd.desc 1).gone = 0 ∧ (pageEnd.desc 1).pages[0]? = some 1 ∧
      (pageEnd.desc 1).resolved = 255 ∧ pageEnd.nextEligible 1 = none := by decide +kernel
/-- The last of `n` positions, `gone` pages handed on, is in flight; the stream is in state `st`. -/
def lastMove (n gone : Nat) (pages : List PageNo) (st : StreamState) : State :=
  { placed (base 900) Stream.atPowerOn (taker st [1] []) Descriptor.blank
      { taking .active n (some 100) n with
        pages := pages, resolved := n - 1, written := 2 * (n - 1), gone := gone,
        counts := { Counts.zero with stored := n - 1 } } with
    inFlight := some { stream := 1, generation := 1, direction := .capture, handle := 1, position := n - 1,
                       frame := 0, kind := some (.held [0x1234]), mute := false, void := false } }

/-- Four frames end within their page; 256 end with it. -/
theorem witness_CaptureCompletion_last :
    (after .completion (lastMove 4 0 [1] .running)).claims =
        [.data { stream := 1, generation := 1, handle := 1, tag := 0x66, offset := 0, count := 8, page := 1 }, .done 1] ∧
      (after .completion (lastMove 256 0 [1] .stopping)).claims =
        [.data { stream := 1, generation := 1, handle := 1, tag := 0x66, offset := 0, count := 512, page := 1 }, .done 1,
          .streamEvent 1] ∧
      ((lastMove 256 0 [1] .stopping).desc 1).bytes = 256 * 2 ∧ 255 * 2 / 512 = 0 ∧
      ((lastMove 256 0 [1] .stopping).desc 1).pages.length = (256 * 2 + 511) / 512 ∧
      ((lastMove 256 0 [1] .stopping).desc 1).direction = .capture ∧
      ((lastMove 256 0 [1] .stopping).desc 1).resolved + 1 = 256 := by decide +kernel

theorem witness_SetArbitration :
    (asked State.reset 0x41 [2]).port.inbound = [{ seq := 1, kind := 0x41, payload := [2] }] ∧ 2 ≤ (2 : Byte).toNat := by
  decide +kernel

/-! Frame events -/

theorem witness_SamplePacking : 3 ∈ [2, 3, 4] ∧ 8 * 3 ≤ 24 ∧ 24 ≤ 32 ∧ ([1, 2, 3] : List Byte).length = 3 := by decide

theorem witness_SlotComposition :
    (alone.lane 0).domain = .a ∧ (alone.lane 0).txEnable = true ∧ (alone.domain .a).slots ∈ [2, 4, 8] ∧
      (alone.lane 0).txMarker = true ∧ alone.txBase 0 1 = some 0 ∧ (alone.stream 0).ring.head? = some (.sample [0x1234]) ∧
      (alone.domain .a).counter.toNat % 32 = 0 ∧ (alone.lane 0).staged = some 0x80000000 := by decide +kernel

theorem witness_PlayStream_commit :
    atWork.PlacesOk ∧ (atWork.stream 0).direction = .play ∧ (atWork.stream 0).domain = .a ∧
      (atWork.stream 0).state = .running ∧ (atWork.stream 0).ring = .sample [0x1234] :: [] :=
  ⟨placesOk_of _ (by decide +kernel), by decide +kernel, by decide +kernel, by decide +kernel, by decide +kernel⟩

/-- The move for the due position has not completed when frame 65 comes, with nothing in the ring. -/
def underrun : State :=
  { placed (base 65) (player .running [0] []) (taker .running [1] []) (loaded .active 4 (some 63) 2)
      (taking .active 4 (some 64) 0) with inFlight := some (playFlight 2 65 false) }

theorem witness_PlayStream_due :
    underrun.PlacesOk ∧ (underrun.stream 0).ring = [] ∧ (underrun.desc 0).span = some 63 ∧
      (63 : FrameNo) + BitVec.ofNat 32 (underrun.desc 0).resolved = (underrun.domain .a).counter ∧
      (underrun.desc 0).resolved + 1 < (underrun.desc 0).frames :=
  ⟨placesOk_of _ (by decide +kernel), by decide +kernel, by decide +kernel, by decide +kernel, by decide +kernel⟩
/-- The same with a descriptor of three frames, so that the due position is the last. -/
def underrunLast (st : StreamState) : State :=
  { placed (unmarked 65) (player st [0] []) Stream.atPowerOn (loaded .active 3 (some 63) 2) Descriptor.blank with
    inFlight := some (playFlight 2 65 false) }

theorem witness_PlayStream_last :
    (underrunLast .stopping).PlacesOk ∧ (underrunLast .running).PlacesOk ∧
      ((underrunLast .running).desc 0).resolved + 1 = ((underrunLast .running).desc 0).frames ∧
      ((after (.generatorBoundary .a quiet) (underrunLast .stopping)).desc 0).outcome = some .complete :=
  ⟨placesOk_of _ (by decide +kernel), placesOk_of _ (by decide +kernel), by decide +kernel, by decide +kernel⟩

/-- A WAITING head whose span starts at 70. -/
def notYetDue : State :=
  placed (unmarked 65) { player .running [0] [] with sounding := true, gapOpen := true } Stream.atPowerOn
    (loaded .waiting 4 (some 70) 0) Descriptor.blank

theorem witness_PlayStream_wait :
    notYetDue.PlacesOk ∧ 1 ≤ ((70 : FrameNo) - 65).toNat ∧ ((70 : FrameNo) - 65).toNat < 2 ^ 31 ∧
      (70 : FrameNo) + BitVec.ofNat 32 (notYetDue.desc 0).resolved ≠ (notYetDue.domain .a).counter ∧
      ((after (.generatorBoundary .a quiet) notYetDue).stream 0).gapOpen = false :=
  ⟨placesOk_of _ (by decide +kernel), by decide, by decide, by decide +kernel, by decide +kernel⟩
theorem witness_PlayStream_gap :
    ({ player .running [] [] with sounding := true } : Stream).queue = [] ∧ (player .idle [] [.fill]).state = .idle ∧
      (placed (base 65) { player .running [] [] with sounding := true } Stream.atPowerOn Descriptor.blank
        Descriptor.blank).PlacesOk ∧
      (placed (base 65) { player .running [0] [] with sounding := true } Stream.atPowerOn (loaded .loading 4 none 0)
        Descriptor.blank).PlacesOk :=
  ⟨rfl, rfl, placesOk_of _ (by decide +kernel), placesOk_of _ (by decide +kernel)⟩

theorem witness_MarkerWord :
    (alone.domain .a).counter.toNat % 32 = 0 ∧ (alone.lane 0).staged = some 0x80000000 ∧
      ((base 65).domain .a).counter.toNat % 32 ≠ 0 ∧ alone.takesFrameEvent (.generatorBoundary .a quiet) .a quiet :=
  ⟨by decide +kernel, by decide +kernel, by decide +kernel, .inl ⟨rfl, by decide +kernel⟩⟩

/-- Lane 0 expects frame `n − 1`, having collected `c` bits of block 2. -/
def collecting (n : FrameNo) (c : Nat) : State :=
  { base n with lanes := (base n).lanes.set 0 { busyLane with assembly := some { block := 2, count := c, word := 0 } } }

theorem witness_ReceivedMarker :
    ((collecting 70 5).domain .a).delivers = true ∧ ((collecting 70 5).lane 0).gathering = true ∧
      ((70 : FrameNo) - 1).toNat % 32 = 5 ∧ ((65 : FrameNo) - 1).toNat % 32 = 0 ∧ ((96 : FrameNo) - 1).toNat % 32 = 31 ∧
      BitVec.ofNat 27 (((96 : FrameNo) - 1).toNat / 32) = 2 ∧ ((collecting 70 4).lane 0).assembly ≠ none := by decide +kernel

/-- Stream 1 waits for frame 64 with four held frames, or with fewer. -/
def holding (backlog : List BacklogEntry) : State :=
  placed (base 65) Stream.atPowerOn (taker .running [1] backlog) Descriptor.blank
    { taking .active 8 (some 60) 4 with resolved := 4 - backlog.length }

theorem witness_DeliveredFrame :
    (holding []).PlacesOk ∧ (60 : FrameNo) + BitVec.ofNat 32 ((holding []).desc 1).assigned = (65 : FrameNo) - 1 ∧
      ((holding []).desc 1).assigned + 1 < ((holding []).desc 1).frames ∧
      (∀ e ∈ ((holding []).stream 1).map, ((holding []).lane e.1).gathering = true) ∧ (holding []).heldCount 1 = 0 :=
  ⟨placesOk_of _ (by decide +kernel), by decide +kernel, by decide +kernel, by decide +kernel, by decide +kernel⟩
theorem witness_DeliveredFrame_overrun :
    (holding [heldAt 0 60 1, heldAt 1 61 2, heldAt 2 62 3, heldAt 3 63 4]).heldCount 1 = 4 := by decide +kernel
/-- Stream 1 runs at frame `n` with descriptor 1 of 8 frames from 60, `p` of them assigned, and the READY descriptor 2. -/
def delivering (n : FrameNo) (p : Nat) : State :=
  { placed (unmarked n) Stream.atPowerOn (taker .running [1, 2] []) Descriptor.blank
      { taking .active 8 (some 60) p with resolved := p } with
    descs := ((base n).descs.set 1 { taking .active 8 (some 60) p with resolved := p }).set 2
      { taking .ready 8 none 0 with pages := [2] } }

/-- F is 66 with 4 assigned: two positions passed over; F is 67, the descriptor's last; F is 69, beyond it. -/
theorem witness_DeliveredFrame_over :
    (delivering 67 4).PlacesOk ∧ ((66 : FrameNo) - (60 + 4)).toNat = 2 ∧ (delivering 68 7).PlacesOk ∧
      ((67 : FrameNo) - (60 + 7)).toNat = 0 ∧ (delivering 70 5).PlacesOk ∧ ((69 : FrameNo) - (60 + 5)).toNat = 4 ∧
      ((delivering 70 5).desc 2).state = .ready ∧ ((delivering 70 5).desc 2).start = .immediate ∧
      ((after (.generatorBoundary .a quiet) (delivering 68 7)).desc 2).span = some 68 ∧
      ((after (.generatorBoundary .a quiet) (delivering 70 5)).desc 2).span = some 69 :=
  ⟨placesOk_of _ (by decide +kernel), by decide, placesOk_of _ (by decide +kernel), by decide,
    placesOk_of _ (by decide +kernel), by decide, by decide +kernel, by decide +kernel, by decide +kernel,
    by decide +kernel⟩

/-- F is 64: a WAITING descriptor from 70; a fully assigned one, or none. -/
def unassigned (queue : List Handle) (d : Descriptor) : State :=
  placed (unmarked 65) Stream.atPowerOn { taker .running queue [] with sounding := true } Descriptor.blank d

theorem witness_DeliveredFrame_wait_gap :
    (unassigned [1] (taking .waiting 8 (some 70) 0)).PlacesOk ∧ 1 ≤ ((70 : FrameNo) - 64).toNat ∧
      ((70 : FrameNo) - 64).toNat < 2 ^ 31 ∧
      (unassigned [1] (taking .active 4 (some 60) 4)).PlacesOk ∧
      (taking .active 4 (some 60) 4).fullyAssigned = true ∧ 2 ^ 31 ≤ ((60 : FrameNo) - 64).toNat ∧
      (unassigned [] Descriptor.blank).PlacesOk ∧ (unassigned [1] (taking .active 4 (some 60) 3)).PlacesOk ∧
      ((after (.generatorBoundary .a quiet) (unassigned [] Descriptor.blank)).stream 1).gapOpen = true :=
  ⟨placesOk_of _ (by decide +kernel), by decide, by decide, placesOk_of _ (by decide +kernel), by decide, by decide,
    placesOk_of _ (by decide +kernel), placesOk_of _ (by decide +kernel), by decide +kernel⟩

/-- An IDLE capture stream with a READY descriptor is offered no frame. -/
theorem witness_DeliveredFrame_idle :
    let s := placed (unmarked 65) Stream.atPowerOn (taker .idle [1] []) Descriptor.blank (taking .ready 4 none 0)
    s.PlacesOk ∧ (s.stream 1).state = .idle ∧
      (after (.generatorBoundary .a quiet) s).stream 1 = taker .idle [1] [] ∧
      (after (.generatorBoundary .a quiet) s).desc 1 = taking .ready 4 none 0 :=
  ⟨placesOk_of _ (by decide +kernel), by decide +kernel, by decide +kernel, by decide +kernel⟩

/-! Override, claims, reports -/

theorem witness_OverrideLine :
    State.reset.ovr.level = .deasserted ∧ (after .assertionEdge State.reset).ovr.level = .asserted ∧
      (asked State.reset 0x40 []).port.inbound = [{ seq := 1, kind := 0x40, payload := [] }] := by decide +kernel

theorem witness_LatchChanges :
    State.reset.ovr.latch = false ∧ (after .assertionEdge State.reset).ovr.latch = true ∧
      exec .assertionEdge State.reset = .next (after .assertionEdge State.reset) ∧
      (after (.pinReset .deasserted false) (after .assertionEdge State.reset)).ovr.latch = false :=
  ⟨rfl, by decide +kernel, rfl, by decide +kernel⟩

theorem witness_Conversion :
    (after .assertionEdge State.reset).claims = [.overrideEvent] ∧
      (after .assertionEdge State.reset).port.outbound.countP (fun e => !e.isReply) < 16 ∧ State.reset.claims = [] ∧
      ((after .stopAbort (asked atWork 0x23 [0, 1, 1])).claims = [.done 0]) ∧
      ((after .stopAbort (asked atWork 0x23 [0, 1, 1])).desc 0).outcome.isSome = true := by decide +kernel

theorem witness_wholeMachine_rules :
    exec .conversion (after .assertionEdge State.reset) = .next (after .conversion (after .assertionEdge State.reset)) ∧
      exec .closeStream (asked waitingStart 0x21 [0, 1]) = .next (after .closeStream (asked waitingStart 0x21 [0, 1])) :=
  ⟨rfl, rfl⟩

/-- CLOSE of stream 0, with STREAM EVENT claims of streams 0 and 1 pending, rewrites the one of stream 0 alone; with another
generation it is refused and leaves both. -/
theorem witness_Claims_close :
    let s := { waitingStart with claims := [.streamEvent 1, .streamEvent 0, .overrideEvent] }
    (0 : Byte).toNat = (0 : StreamNo).val ∧ (s.stream 0).state = .idle ∧ (s.stream 0).generation = 1 ∧
      (after .closeStream (asked s 0x21 [0, 1])).claims =
        [.streamEvent 1, .streamDetached 0 1 (s.stream 0).record, .overrideEvent, .done 0] ∧
      (after .closeStream (asked s 0x21 [0, 2])).claims = s.claims ∧
      lastStatus (after .closeStream (asked s 0x21 [0, 2])) = some .stale := by decide +kernel

/-! The invariants, met by the parts at work -/

theorem witness_memory : ({ atWork with mem := [(6, 0xCD), (700, 1)] } : State).MemoryOk := by
  unfold State.MemoryOk; decide +kernel

theorem witness_override : (after .assertionEdge State.reset).OverrideOk :=
  ⟨by decide +kernel, by decide +kernel, by decide +kernel, by decide +kernel⟩

theorem witness_claims : (after .assertionEdge atWork).ClaimsOk :=
  ⟨by decide +kernel, by decide +kernel, fun d => by cases d <;> decide +kernel, by decide +kernel, by decide +kernel,
    by decide +kernel, by decide +kernel⟩

theorem witness_owners : atWork.OwnersOk := by
  have f : ∀ i, (atWork.stream i).isOpen = true →
      ((atWork.stream i).overlay = true → (atWork.stream i).cls = .override ∧ (atWork.stream i).direction = .play) ∧
      (1 ≤ (atWork.stream i).map.length ∧ (atWork.stream i).map.length ≤ 16 ∧ (atWork.stream i).map.Nodup) ∧
      ((atWork.stream i).width ∈ [2, 3, 4] ∧ 8 * (atWork.stream i).width ≤ (atWork.domain (atWork.stream i).domain).width) ∧
      (1 ≤ (atWork.stream i).depth ∧ (atWork.stream i).depth ≤ 8) ∧
      (atWork.domain (atWork.stream i).domain).source ≠ .off ∧
      (∀ e ∈ (atWork.stream i).map, (atWork.lane e.1).domain = (atWork.stream i).domain ∧
        (atWork.lane e.1).enabledFor (atWork.stream i).direction = true ∧
        e.2.val < (atWork.domain (atWork.stream i).domain).slots) := by decide +kernel
  refine ⟨?_, ?_, ?_, fun i h => let ⟨a, b, c, d, e, g⟩ := f i h; ⟨a, b, c, d, e, g⟩⟩ <;>
    (unfold Stream.holds; decide +kernel)

theorem witness_descs : atWork.DescsOk := by
  have blank : Descriptor.blank.Ok := by
    constructor <;> first | decide | (intro h; cases h)
  have d0 : (loaded .active 4 (some 63) 2).Ok := by
    constructor <;> first | decide | (intro h; cases h)
  have d1 : (taking .active 4 (some 62) 2).Ok := by
    constructor <;> first | decide | (intro h; cases h)
  intro h
  have : atWork.desc h = Descriptor.blank ∨ atWork.desc h = loaded .active 4 (some 63) 2 ∨
      atWork.desc h = taking .active 4 (some 62) 2 := by
    revert h; decide +kernel
  rcases this with e | e | e <;> rw [e] <;> assumption

theorem witness_queues : atWork.QueuesOk := by
  have h : ∀ i, (atWork.stream i).queue.length ≤ (atWork.stream i).depth ∧
      (∀ h ∈ (atWork.stream i).queue, (atWork.desc h).generation = (atWork.stream i).generation ∧
        (atWork.desc h).direction = (atWork.stream i).direction ∧ (atWork.desc h).frameSize = (atWork.stream i).frameSize) ∧
      neighbours (atWork.aheadOk (atWork.stream i)) (atWork.stream i).queue = true ∧
      ((atWork.stream i).moving = false → ∀ h ∈ (atWork.stream i).queue, (atWork.desc h).eligible = false) ∧
      ((atWork.stream i).moving = true → ∀ h ∈ (atWork.stream i).queue.head?,
        (atWork.desc h).state ≠ .ready ∧ (atWork.desc h).spent = false) ∧
      ((atWork.stream i).state = .stopping → (atWork.stream i).queue ≠ []) ∧
      ((atWork.stream i).state = .closed → (atWork.stream i).queue = []) := by decide +kernel
  exact fun i => let ⟨a, b, c, d, e, f, g⟩ := h i; ⟨a, b, c, d, e, f, g⟩

theorem witness_move : atWork.MoveOk := by
  refine ⟨?_, ?_, ?_⟩ <;> (intro m hm; cases hm; decide +kernel)

theorem witness_backlog : atWork.BacklogOk := by
  refine ⟨by decide +kernel, by decide +kernel, ?_⟩
  have h : ∀ i, ∀ e ∈ (atWork.stream i).backlog, (match e.kind with
      | .held xs => decide (xs.length = (atWork.stream i).channels)
      | _ => true) = true := by decide +kernel
  intro i e he xs hk
  have := h i e he
  rw [hk] at this
  simpa using this

theorem witness_lead : atWork.LeadOk := by
  refine ⟨by decide +kernel, by decide +kernel, ?_, by decide +kernel⟩
  intro m hm; cases hm; decide +kernel

theorem witness_pools : atWork.PoolsOk where
  owners := witness_owners
  held := by unfold State.HeldOk; decide +kernel
  places := placesOk_of _ (by decide +kernel)
  descs := witness_descs
  queues := witness_queues
  move := witness_move
  backlog := witness_backlog
  pages := by unfold State.PagesOk; decide +kernel
  lead := witness_lead
  data := ⟨by decide +kernel, fun x h => absurd h (by simp [show atWork.claims = [] by rfl])⟩

/-- Steps whose premises those invariants are. -/
theorem witness_steps :
    step { atWork with pending := [.completion] } = .next (after .completion atWork) ∧
      step { atWork with pending := [.assertionEdge] } = .next (after .assertionEdge atWork) := ⟨rfl, rfl⟩

end Sys2Proof.Tests
end

/-! ## Ownership: what a step must leave alone -/

namespace Sys2Proof.Machine

/-! ### What the ownership invariant reads -/

/-- What R4 and R5 read of a stream context: whether it is open, and the fields its opening fixed. -/
def Stream.shape (st : Stream) :
    Bool × Direction × StreamClass × Bool × Nat × Nat × List (LaneNo × SlotNo) × DomainId :=
  (st.isOpen, st.direction, st.cls, st.overlay, st.width, st.depth, st.map, st.domain)

/-- What R5 reads of a lane: its domain and its two enables. -/
def Lane.wiring (ln : Lane) : DomainId × Bool × Bool := (ln.domain, ln.txEnable, ln.rxEnable)

/-- What R5 reads of a domain: its source and the shape of its frame. -/
def Domain.format (dm : Domain) : Source × Nat × Nat := (dm.source, dm.slots, dm.width)

theorem Stream.shape_eq_iff {a b : Stream} : a.shape = b.shape ↔
    a.isOpen = b.isOpen ∧ a.direction = b.direction ∧ a.cls = b.cls ∧ a.overlay = b.overlay ∧ a.width = b.width ∧
      a.depth = b.depth ∧ a.map = b.map ∧ a.domain = b.domain := by
  simp [Stream.shape]

theorem Lane.wiring_eq_iff {a b : Lane} : a.wiring = b.wiring ↔
    a.domain = b.domain ∧ a.txEnable = b.txEnable ∧ a.rxEnable = b.rxEnable := by
  simp [Lane.wiring]

theorem Domain.format_eq_iff {a b : Domain} : a.format = b.format ↔
    a.source = b.source ∧ a.slots = b.slots ∧ a.width = b.width := by
  simp [Domain.format]

theorem Lane.enabledFor_congr {a b : Lane} (h : a.wiring = b.wiring) (dir : Direction) :
    a.enabledFor dir = b.enabledFor dir := by
  obtain ⟨-, htx, hrx⟩ := Lane.wiring_eq_iff.mp h
  cases dir
  · exact htx
  · exact hrx

theorem Stream.holds_congr {a b : Stream} (h : a.shape = b.shape) (dir : Direction) (ov : Bool) (e : LaneNo × SlotNo) :
    a.holds dir ov e ↔ b.holds dir ov e := by
  obtain ⟨ho, hd, -, hv, -, -, hm, -⟩ := Stream.shape_eq_iff.mp h
  simp only [Stream.holds, ho, hd, hv, hm]

/-- What OPEN checked rests on the stream's own shape, the wiring of the lanes it names and the format of its domain. -/
theorem Stream.Fits.congr {a b : Stream} {s t : State} (h : a.Fits s) (hab : b.shape = a.shape)
    (hd : (t.domain a.domain).format = (s.domain a.domain).format)
    (hl : ∀ e ∈ a.map, (t.lane e.1).wiring = (s.lane e.1).wiring) : b.Fits t := by
  obtain ⟨-, bdir, bcls, bov, bwid, bdep, bmap, bdom⟩ := Stream.shape_eq_iff.mp hab
  obtain ⟨dsrc, dslots, dwidth⟩ := Domain.format_eq_iff.mp hd
  refine ⟨?_, ?_, ?_, ?_, ?_, fun e he => ?_⟩
  · rw [bov, bcls, bdir]; exact h.overlay
  · rw [bmap]; exact h.map
  · rw [bwid, bdom, dwidth]; exact h.width
  · rw [bdep]; exact h.depth
  · rw [bdom, dsrc]; exact h.source
  · rw [bmap] at he
    obtain ⟨hdom, hen, hslot⟩ := h.lanes e he
    have hw := hl e he
    rw [bdom, bdir, dslots, (Lane.wiring_eq_iff.mp hw).1, Lane.enabledFor_congr hw]
    exact ⟨hdom, hen, hslot⟩

/-! ### Steps that change nothing of it -/

/-- From `s` to `t` nothing changes that the ownership invariant reads. -/
structure OwnershipFrame (s t : State) : Prop where
  owners : t.owners = s.owners
  streams : ∀ i, (t.stream i).shape = (s.stream i).shape
  lanes : ∀ l, (t.lane l).wiring = (s.lane l).wiring
  domains : ∀ d, (t.domain d).format = (s.domain d).format

theorem OwnershipFrame.keeps {s t : State} (a : OwnershipFrame s t) (hs : s.OwnersOk) : t.OwnersOk where
  txBase l k i := by
    rw [Stream.holds_congr (a.streams i), State.txBase, a.owners]; exact hs.txBase l k i
  txOverlay l k i := by
    rw [Stream.holds_congr (a.streams i), State.txOverlay, a.owners]; exact hs.txOverlay l k i
  rxBase l k i := by
    rw [Stream.holds_congr (a.streams i), State.rxBase, a.owners]; exact hs.rxBase l k i
  fits i ho := by
    rw [(Stream.shape_eq_iff.mp (a.streams i)).1] at ho
    exact (hs.fits i ho).congr (a.streams i) (a.domains _) fun e _ => a.lanes e.1

theorem OwnershipFrame.refl (s : State) : OwnershipFrame s s :=
  ⟨rfl, fun _ => rfl, fun _ => rfl, fun _ => rfl⟩

theorem OwnershipFrame.trans {s t u : State} (a : OwnershipFrame s t) (b : OwnershipFrame t u) : OwnershipFrame s u where
  owners := b.owners.trans a.owners
  streams i := (b.streams i).trans (a.streams i)
  lanes l := (b.lanes l).trans (a.lanes l)
  domains d := (b.domains d).trans (a.domains d)

/-- The five parts of the state that the invariant reads stay as they are. -/
theorem OwnershipFrame.of_eq {s t : State} (ho : t.owners = s.owners) (hs : t.streams = s.streams)
    (hl : t.lanes = s.lanes) (ha : t.domA = s.domA) (hb : t.domB = s.domB) : OwnershipFrame s t where
  owners := ho
  streams i := by rw [State.stream, hs]; rfl
  lanes l := by rw [State.lane, hl]; rfl
  domains d := by
    cases d
    · rw [State.domain, ha]; rfl
    · rw [State.domain, hb]; rfl

/-- A stream that keeps its shape. -/
theorem OwnershipFrame.modStream_at {s : State} {i : StreamNo} {f : Stream → Stream}
    (hf : (f (s.stream i)).shape = (s.stream i).shape) : OwnershipFrame s (s.modStream i f) :=
  { OwnershipFrame.refl s with
    streams := fun j => by
      rw [State.stream_modStream]
      split
      · next e => rw [e, hf]
      · rfl }

/-- Each operation that changes no such part extends a frame at its end. -/
theorem OwnershipFrame.modStream {s u : State} (a : OwnershipFrame s u) (i : StreamNo) (f : Stream → Stream)
    (hf : ∀ st, (f st).shape = st.shape := by intro st; rfl) : OwnershipFrame s (u.modStream i f) :=
  a.trans (.modStream_at (hf _))

theorem OwnershipFrame.modLane {s u : State} (a : OwnershipFrame s u) (l : LaneNo) (f : Lane → Lane)
    (hf : ∀ ln, (f ln).wiring = ln.wiring := by intro ln; rfl) : OwnershipFrame s (u.modLane l f) :=
  a.trans { OwnershipFrame.refl u with
    lanes := fun l' => by
      rw [State.lane_modLane]
      split
      · next e => rw [e, hf]
      · rfl }

theorem OwnershipFrame.mapLanesOf {s u : State} (a : OwnershipFrame s u) (d : DomainId) (f : LaneNo → Lane → Lane)
    (hf : ∀ l ln, (f l ln).wiring = ln.wiring := by intro l ln; rfl) : OwnershipFrame s (u.mapLanesOf d f) :=
  a.trans { OwnershipFrame.refl u with
    lanes := fun l => by
      rw [State.lane_mapLanesOf]
      split
      · rw [hf]
      · rfl }

theorem OwnershipFrame.modDomain {s u : State} (a : OwnershipFrame s u) (d : DomainId) (f : Domain → Domain)
    (hf : ∀ dm, (f dm).format = dm.format := by intro dm; rfl) : OwnershipFrame s (u.modDomain d f) :=
  a.trans
    { owners := State.modDomain_owners u d f
      streams := fun i => by rw [State.modDomain_stream]
      lanes := fun l => by rw [State.modDomain_lane]
      domains := fun e => by
        by_cases h : e = d
        · rw [h, State.domain_modDomain_same, hf]
        · rw [State.domain_modDomain_ne u f h] }

theorem OwnershipFrame.modDesc {s u : State} (a : OwnershipFrame s u) (h : Handle) (f : Descriptor → Descriptor) :
    OwnershipFrame s (u.modDesc h f) :=
  a.trans (.of_eq rfl rfl rfl rfl rfl)

theorem OwnershipFrame.modPort {s u : State} (a : OwnershipFrame s u) (f : Port → Port) : OwnershipFrame s (u.modPort f) :=
  a.trans (.of_eq rfl rfl rfl rfl rfl)

theorem OwnershipFrame.release {s u : State} (a : OwnershipFrame s u) (ps : List PageNo) : OwnershipFrame s (u.release ps) :=
  a.trans (.of_eq rfl rfl rfl rfl rfl)

theorem OwnershipFrame.raiseClaim {s u : State} (a : OwnershipFrame s u) (c : Claim) : OwnershipFrame s (u.raiseClaim c) :=
  a.trans (.of_eq rfl rfl rfl rfl rfl)

theorem OwnershipFrame.raiseOnce {s u : State} (a : OwnershipFrame s u) (c : Claim) : OwnershipFrame s (u.raiseOnce c) :=
  a.trans (.of_eq (by simp) (by simp) (by simp) (by simp) (by simp))

theorem OwnershipFrame.voidIf {s u : State} (a : OwnershipFrame s u) (p : Move → Bool) : OwnershipFrame s (u.voidIf p) :=
  a.trans (.of_eq rfl rfl rfl rfl rfl)

theorem OwnershipFrame.reply {s u : State} (a : OwnershipFrame s u) (r : Request) (st : Status) (b : ReplyBody) :
    OwnershipFrame s (u.reply r st b) :=
  a.trans (.of_eq rfl rfl rfl rfl rfl)

/-- A queue coming to rest leaves a stream open or CLOSED as it was: a drain ends in IDLE (R12). -/
theorem QueueFrame.ownership {i : StreamNo} {s t : State} (a : QueueFrame i s t) : OwnershipFrame s t where
  owners := a.owners
  streams j := by
    by_cases h : j = i
    · subst h
      obtain ⟨-, hdir, hcls, hov, hwid, hdep, hmap, hdom⟩ := a.opening
      refine Stream.shape_eq_iff.mpr ⟨?_, hdir, hcls, hov, hwid, hdep, hmap, hdom⟩
      rcases a.state with e | ⟨hs, ht, -⟩
      · simp only [Stream.isOpen, e]
      · simp [Stream.isOpen, hs, ht]
    · rw [a.others j h]
  lanes l := by rw [State.lane, a.lanes]; rfl
  domains d := by
    cases d
    · rw [State.domain, a.domA]; rfl
    · rw [State.domain, a.domB]; rfl

theorem OwnershipFrame.settleAt {s u : State} (a : OwnershipFrame s u) (i : StreamNo) (t : FrameTime) :
    OwnershipFrame s (u.settleAt i t) :=
  a.trans (settleAt_frame u i t).ownership

theorem OwnershipFrame.settle {s u : State} (a : OwnershipFrame s u) (i : StreamNo) : OwnershipFrame s (u.settle i) :=
  a.settleAt i _

theorem OwnershipFrame.account {s u : State} (a : OwnershipFrame s u) (i : StreamNo) (c : FrameClass) (f : FrameNo) :
    OwnershipFrame s (u.account i c f) :=
  a.trans (QueueFrame.account u i c f).ownership

/-! ### The frame event -/

theorem playEvent_ownership (s : State) (i : StreamNo) (n : FrameNo) (t : FrameTime) :
    OwnershipFrame s (s.playEvent i n t) := by
  have commit : ∀ st : Stream, st.commit.shape = st.shape := by
    intro st
    unfold Stream.commit
    split <;> rfl
  unfold State.playEvent
  split
  · split
    · exact ((OwnershipFrame.refl s).modStream i _ commit).account i _ n
    · split
      · exact OwnershipFrame.account (.settleAt (.modDesc (.release (.modDesc (.voidIf (.refl s) _) _ _) _) _ _) i t) i _ n
      · exact (OwnershipFrame.refl s).account i _ n
  · exact (OwnershipFrame.refl s).modStream i _

theorem assign_ownership (s : State) (i : StreamNo) (h : Handle) (p : Nat) (f : FrameNo) (xs : List Word32) :
    OwnershipFrame s (s.assign i h p f xs) :=
  OwnershipFrame.trans (.modStream (.modDesc (.refl s) h _) i _) (overrun_frame _ i).ownership

theorem offer_ownership (i : StreamNo) (t : FrameTime) (f : FrameNo) (xs : List Word32) (k : Nat) (s : State) :
    OwnershipFrame s (State.offer i t f xs k s).1 := by
  induction k generalizing s with
  | zero => exact .refl s
  | succ k ih =>
    unfold State.offer
    split
    · exact .refl s
    · dsimp only
      split
      · exact OwnershipFrame.trans (.settleAt (.modStream (.modDesc (.refl s) _ _) i _) i t) (ih _)
      · split
        · exact .settleAt (.trans (.modStream (.modDesc (.refl s) _ _) i _) (assign_ownership _ i _ _ f xs)) i t
        · dsimp only
          exact .modStream (.modDesc (.refl s) _ _) i _

theorem captureEvent_ownership (s : State) (i : StreamNo) (W : Nat) (rx : RxFrame) (f : FrameNo) (t : FrameTime) :
    OwnershipFrame s (s.captureEvent i W rx f t) := by
  unfold State.captureEvent
  split
  · exact (offer_ownership i t f _ _ s).account i _ f
  · exact .refl s

theorem laneEvent_ownership (s : State) (l : LaneNo) (W : Nat) (rx : RxFrame) (f : FrameNo) :
    OwnershipFrame s (s.laneEvent l W rx f) := by
  unfold State.laneEvent
  dsimp only
  split
  · exact .modLane (.refl s) l _
  · split
    · exact .modLane (.refl s) l _
    · exact .raiseOnce (.modLane (.modLane (.refl s) l _) l _) _

theorem itemEvent_ownership (dom : Domain) (rx : RxFrame) (s : State) (x : Item) :
    OwnershipFrame s (State.itemEvent dom rx s x) := by
  cases x with
  | stream i =>
    simp only [State.itemEvent]
    split
    · exact playEvent_ownership s i _ _
    · split
      · exact captureEvent_ownership s i _ rx _ _
      · exact .refl s
  | lane l => exact laneEvent_ownership s l _ rx _

theorem foldl_itemEvent_ownership (dom : Domain) (rx : RxFrame) (xs : List Item) (s : State) :
    OwnershipFrame s (xs.foldl (State.itemEvent dom rx) s) := by
  induction xs generalizing s with
  | nil => exact .refl s
  | cons x xs ih => exact (itemEvent_ownership dom rx s x).trans (ih _)

theorem Lane.takeUp_wiring (ln : Lane) (n : FrameNo) : (ln.takeUp n).wiring = ln.wiring := by
  unfold Lane.takeUp
  split
  · split <;> rfl
  · rfl

/-- A frame event moves counters, queues and rings, and nothing an opening was checked against (R97). -/
theorem frameEvent_ownership (s : State) (d : DomainId) (rx : RxFrame) : OwnershipFrame s (s.frameEvent d rx) := by
  have sent : OwnershipFrame s (s.transmit d) :=
    (OwnershipFrame.refl s).mapLanesOf d _ fun _ ln => ln.takeUp_wiring _
  have broken : OwnershipFrame s (if (s.domain d).delivers then s.transmit d
      else (s.transmit d).mapLanesOf d fun _ ln => { ln with assembly := none }) := by
    split
    · exact sent
    · exact sent.mapLanesOf d _
  have settled := broken.trans (foldl_itemEvent_ownership (s.domain d) rx
    (sortRanked (fun x => Config.rank s.freeCount x.number) (s.items d)) _)
  have advanced := settled.modDomain d fun dm => { dm with counter := dm.counter + 1, delivers := true }
  exact (advanced.mapLanesOf d fun _ ln => { ln with gathering := ln.rxEnable }).trans (.of_eq rfl rfl rfl rfl rfl)

/-! ### Clock Domains -/

theorem OwnershipFrame.lockTransition {s u : State} (a : OwnershipFrame s u) (d : DomainId) :
    OwnershipFrame s (u.lockTransition d) := by
  unfold State.lockTransition State.breakAssemblies
  exact .raiseOnce (.mapLanesOf (.modDomain a d _) d _) _

theorem loseLock_ownership (s : State) (d : DomainId) (b : Bool) : OwnershipFrame s (s.loseLock d b) := by
  unfold State.loseLock State.stopLanes
  exact .mapLanesOf (.lockTransition (.modDomain (.refl s) d _) d) d _

theorem goodFrameClosed_ownership (s : State) (d : DomainId) (duration : Nat) (rx : RxFrame) :
    OwnershipFrame s (s.goodFrameClosed d duration rx) := by
  have timed := (OwnershipFrame.refl s).modDomain d fun dm => { dm with lastGood := some duration }
  have locked : OwnershipFrame s ((s.modDomain d fun dm => { dm with lastGood := some duration }).gainLock d rx) := by
    unfold State.gainLock
    exact .trans (.lockTransition (.modDomain timed d _) d) (frameEvent_ownership _ d rx)
  unfold State.goodFrameClosed
  dsimp only
  split
  · exact timed.trans (frameEvent_ownership _ d rx)
  · exact .refl s
  all_goals
    split
    · exact locked
    · exact timed.modDomain d _

theorem badFrameClosed_ownership (s : State) (d : DomainId) : OwnershipFrame s (s.badFrameClosed d) := by
  unfold State.badFrameClosed
  split
  · exact loseLock_ownership s d true
  · exact .refl s
  all_goals exact .modDomain (.refl s) d _

/-! ### Transfer Engine -/

theorem grantTo_ownership (s : State) (i : StreamNo) : OwnershipFrame s (s.grantTo i) := by
  unfold State.grantTo
  split
  · unfold State.grantPlay
    split
    · exact .refl s
    · exact .of_eq rfl rfl rfl rfl rfl
  · unfold State.grantCapture
    split
    · exact .refl s
    · next e rest _ =>
      exact ((OwnershipFrame.refl s).modStream i fun st => { st with backlog := rest }).trans (.of_eq rfl rfl rfl rfl rfl)

theorem completePlay_ownership (s : State) (m : Move) : OwnershipFrame s (s.completePlay m) := by
  unfold State.completePlay State.resolvePlay State.releaseEntries
  exact .settle (.modDesc (.release (.modDesc (.modDesc (.modStream (.refl s) _ _) _ _) _ _) _) _ _) _

theorem OwnershipFrame.passFilled {s u : State} (a : OwnershipFrame s u) (h : Handle) : OwnershipFrame s (u.passFilled h) := by
  unfold State.passFilled
  split
  · unfold State.passPage
    split
    · exact a
    · exact .modDesc (.raiseClaim a _) _ _
  · exact a

theorem completeCapture_ownership (s : State) (m : Move) (k : EntryKind) : OwnershipFrame s (s.completeCapture m k) := by
  have stored : ∀ mem, OwnershipFrame s { s with mem := mem } := fun _ => .of_eq rfl rfl rfl rfl rfl
  unfold State.completeCapture
  exact .settle (.passFilled (.modDesc (stored _) _ _) _) _

/-! ### Report Path and Exchange Port -/

theorem handOn_ownership (s : State) (c : Claim) : OwnershipFrame s (s.handOn c) := by
  unfold State.handOn
  cases c with
  | done h => exact .modDesc (.refl s) h _
  | data x => exact .refl s
  | streamEvent i => exact .modStream (.refl s) i _
  | streamDetached i g r => exact .refl s
  | domainEvent d => exact .modDomain (.refl s) d _
  | overrideEvent => exact .of_eq rfl rfl rfl rfl rfl
  | marker l => exact .modLane (.refl s) l _

theorem convert_ownership (s : State) (c : Claim) (rest : List Claim) : OwnershipFrame s (s.convert c rest) := by
  have popped : OwnershipFrame s { s with claims := rest } := .of_eq rfl rfl rfl rfl rfl
  unfold State.convert State.appendEntry
  exact (popped.trans (handOn_ownership _ c)).modPort _

theorem acknowledge_ownership (s : State) (a : BitVec 8) : OwnershipFrame s (s.acknowledge a) := by
  unfold State.acknowledge
  split
  · exact .refl s
  · exact .release (.modPort (.refl s) _) _

theorem dealRequest_ownership (s : State) (seq kind : Byte) (payload : List Byte) :
    OwnershipFrame s (s.dealRequest seq kind payload).1 := by
  rcases dealRequest_cases s seq kind payload with h | ⟨h, -⟩
  · rw [h]; exact .refl s
  · rw [h]; exact .of_eq rfl rfl rfl rfl rfl

theorem settleInbound_ownership (s : State) (c : Option (BitVec 8)) (fr : Inbound) :
    OwnershipFrame s (s.settleInbound c fr).1 := by
  cases fr with
  | noFrame => exact .of_eq rfl rfl rfl rfl rfl
  | bad => exact .of_eq rfl rfl rfl rfl rfl
  | good seq ack kind payload =>
    exact ((acknowledge_ownership s ack).modPort fun p => (p.dueCheck true).setDue c).trans (dealRequest_ownership _ _ _ _)

theorem endExchange_ownership (s : State) (f : OutFrame) (sdi : List Byte) : OwnershipFrame s (s.endExchange f sdi) := by
  unfold State.endExchange
  exact .modPort (.trans (.modPort (.refl s) _) (settleInbound_ownership _ (carriedBy f sdi) (judge sdi))) _

end Sys2Proof.Machine

/-! ## Retirement, written out (R44, R45, R46, R58, R61) -/

namespace Sys2Proof.Machine

/-! ### One change after another -/

theorem State.modStream_modStream (s : State) (i : StreamNo) (f g : Stream → Stream) :
    (s.modStream i f).modStream i g = s.modStream i fun st => g (f st) := by
  have h : (s.modStream i f).stream i = f (s.stream i) := State.stream_modStream_same s i f
  simp only [State.modStream, State.mk.injEq, true_and, and_true]
  rw [← State.modStream, h, Vector.set_set]

theorem State.modDesc_modDesc (s : State) (h : Handle) (f g : Descriptor → Descriptor) :
    (s.modDesc h f).modDesc h g = s.modDesc h fun d => g (f d) := by
  have e : (s.modDesc h f).desc h = f (s.desc h) := State.desc_modDesc_same s h f
  simp only [State.modDesc, State.mk.injEq, true_and, and_true]
  rw [← State.modDesc, e, Vector.set_set]

theorem State.modDesc_congr {s : State} {h : Handle} {f g : Descriptor → Descriptor} (e : f (s.desc h) = g (s.desc h)) :
    s.modDesc h f = s.modDesc h g := by
  simp only [State.modDesc, e]

/-! ### The pages of a descriptor that retires -/

/-- The DATA claim for a page that capture moves have written in part (R61). -/
def Descriptor.partClaim (d : Descriptor) (h : Handle) : List Claim :=
  match d.direction with
  | .play => []
  | .capture =>
    if d.written % Config.pageSize = 0 then []
    else d.heldPages.head?.toList.map (d.dataClaim h d.gone (d.written % Config.pageSize))

/-- The pages that go back to the free list at retirement: all that are held, but one handed to a DATA claim (R58, R61). -/
def Descriptor.leftPages (d : Descriptor) : List PageNo :=
  match d.direction with
  | .play => d.heldPages
  | .capture => if d.written % Config.pageSize = 0 then d.heldPages else d.heldPages.tail

/-- A record that holds no page any more. -/
def Descriptor.emptied (d : Descriptor) : Descriptor := { d with gone := max d.gone d.pages.length }

/-- Claims join the tail of the claim list, in their order. -/
def State.raiseAll (s : State) (cs : List Claim) : State := { s with claims := s.claims ++ cs }

@[simp] theorem State.raiseAll_claims (s : State) (cs : List Claim) : (s.raiseAll cs).claims = s.claims ++ cs := rfl
@[simp] theorem State.raiseAll_freeList (s : State) (cs : List Claim) : (s.raiseAll cs).freeList = s.freeList := rfl
@[simp] theorem State.raiseAll_stream (s : State) (cs : List Claim) (i : StreamNo) : (s.raiseAll cs).stream i = s.stream i := rfl
@[simp] theorem State.raiseAll_desc (s : State) (cs : List Claim) (h : Handle) : (s.raiseAll cs).desc h = s.desc h := rfl

theorem State.raiseClaim_eq_raiseAll (s : State) (c : Claim) : s.raiseClaim c = s.raiseAll [c] := rfl

theorem State.raiseAll_raiseAll (s : State) (cs ds : List Claim) : (s.raiseAll cs).raiseAll ds = s.raiseAll (cs ++ ds) := by
  simp [State.raiseAll]

theorem State.raiseAll_nil (s : State) : s.raiseAll [] = s := by simp [State.raiseAll]

theorem releaseEntries_all {s : State} {h : Handle} {n : Nat} (hn : n = (s.desc h).pages.length) :
    s.releaseEntries h n = (s.modDesc h Descriptor.emptied).release (s.desc h).heldPages := by
  subst hn
  simp only [State.releaseEntries, List.take_length]
  rfl

theorem settleCapture_eq {s : State} {h : Handle} (hd : (s.desc h).direction = .capture) : s.settleCapture h =
    ((s.modDesc h Descriptor.emptied).release (s.desc h).leftPages).raiseAll ((s.desc h).partClaim h) := by
  by_cases hp : (s.desc h).written % Config.pageSize = 0
  · simp only [State.settleCapture, Descriptor.leftPages, Descriptor.partClaim, hd, hp, if_true, releaseEntries_all,
      State.raiseAll_nil]
  · cases hh : (s.desc h).heldPages with
    | nil =>
      simp only [State.settleCapture, State.passPage, Descriptor.leftPages, Descriptor.partClaim, hd, hp, if_false, hh,
        releaseEntries_all, List.head?_nil, Option.toList_none, List.map_nil, State.raiseAll_nil, List.tail_nil]
    | cons p ps =>
      have inside : (s.desc h).gone + 1 ≤ (s.desc h).pages.length := by
        have := congrArg List.length hh
        simp only [Descriptor.heldPages, List.length_drop, List.length_cons] at this
        omega
      have left : ({ s.desc h with gone := (s.desc h).gone + 1 } : Descriptor).heldPages = ps := by
        rw [Descriptor.heldPages, ← List.tail_drop]
        exact congrArg List.tail hh
      have once : Descriptor.emptied { s.desc h with gone := (s.desc h).gone + 1 } = Descriptor.emptied (s.desc h) := by
        simp only [Descriptor.emptied, Descriptor.mk.injEq, true_and, and_true]
        omega
      have passed : s.passPage h ((s.desc h).written % Config.pageSize) =
          (s.raiseClaim ((s.desc h).dataClaim h (s.desc h).gone ((s.desc h).written % Config.pageSize) p)).modDesc h
            fun d => { d with gone := d.gone + 1 } := by
        simp only [State.passPage, hh]
      simp only [State.settleCapture, hp, if_false, passed, Descriptor.leftPages, Descriptor.partClaim, hd, hh, List.head?_cons,
        Option.toList_some, List.map_cons, List.map_nil, List.tail_cons]
      rw [releaseEntries_all rfl, State.modDesc_modDesc, State.desc_modDesc_same, State.raiseClaim_desc, left,
        State.modDesc_congr (g := Descriptor.emptied) once]
      rfl

/-- R58 for a play descriptor, R61 for a capture descriptor. -/
theorem settlePages_eq (s : State) (h : Handle) : s.settlePages h =
    ((s.modDesc h Descriptor.emptied).release (s.desc h).leftPages).raiseAll ((s.desc h).partClaim h) := by
  cases hd : (s.desc h).direction with
  | play =>
    simp only [State.settlePages, hd, releaseEntries_all, Descriptor.leftPages, Descriptor.partClaim, State.raiseAll_nil]
  | capture => simp only [State.settlePages, hd, settleCapture_eq hd]

/-! ### One retirement, and a whole queue -/

/-- R44 steps 1 to 4 in one: the record closed, the queue shortened, the pages and claims at their tails. -/
theorem retire_eq (s : State) (i : StreamNo) (h : Handle) (o : DoneOutcome) : s.retire i h o =
    (((s.modDesc h fun d => (d.retire o).emptied).modStream i fun st => { st with queue := st.queue.erase h }).release
      (s.desc h).leftPages).raiseAll ((s.desc h).partClaim h ++ [.done h]) := by
  have closed : State.modDesc ((s.modDesc h fun d => d.retire o).modStream i fun st => { st with queue := st.queue.erase h })
      h Descriptor.emptied =
      (s.modDesc h fun d => (d.retire o).emptied).modStream i fun st => { st with queue := st.queue.erase h } :=
    congrArg (fun u : State => u.modStream i fun st => { st with queue := st.queue.erase h }) (s.modDesc_modDesc h _ _)
  rw [State.retire, settlePages_eq, closed, State.raiseClaim_eq_raiseAll, State.raiseAll_raiseAll, State.modStream_desc,
    State.desc_modDesc_same]
  rfl

theorem retire_stream (s : State) (i j : StreamNo) (h : Handle) (o : DoneOutcome) : (s.retire i h o).stream j =
    if j = i then { s.stream i with queue := (s.stream i).queue.erase h } else s.stream j := by
  simp [retire_eq, State.stream_modStream]

theorem retire_desc (s : State) (i : StreamNo) (h x : Handle) (o : DoneOutcome) : (s.retire i h o).desc x =
    if x = h then ((s.desc h).retire o).emptied else s.desc x := by
  simp [retire_eq, State.desc_modDesc]

theorem retire_freeList (s : State) (i : StreamNo) (h : Handle) (o : DoneOutcome) :
    (s.retire i h o).freeList = s.freeList ++ (s.desc h).leftPages := by
  simp [retire_eq]

theorem retire_claims (s : State) (i : StreamNo) (h : Handle) (o : DoneOutcome) :
    (s.retire i h o).claims = s.claims ++ ((s.desc h).partClaim h ++ [.done h]) := by
  simp [retire_eq]

/-- The queue `q` of stream `i`, all of it, has been retired with the outcomes that `o` gives: what changes between `s`
and `t`, and nothing else does. -/
structure Retired (i : StreamNo) (o : Descriptor → DoneOutcome) (q : List Handle) (s t : State) : Prop where
  stream : t.stream i = { s.stream i with queue := [] }
  others : ∀ j, j ≠ i → t.stream j = s.stream j
  descs : ∀ h, h ∉ q → t.desc h = s.desc h
  records : ∀ h ∈ q, t.desc h = ((s.desc h).retire (o (s.desc h))).emptied
  freeList : t.freeList = s.freeList ++ q.flatMap fun h => (s.desc h).leftPages
  claims : t.claims = s.claims ++ q.flatMap fun h => (s.desc h).partClaim h ++ [.done h]
  rest : t = { s with streams := t.streams, descs := t.descs, freeList := t.freeList, claims := t.claims }

theorem retireAll_retired (i : StreamNo) (o : Descriptor → DoneOutcome) (q : List Handle) (s : State)
    (hq : (s.stream i).queue = q) (hn : q.Nodup) : Retired i o q s (State.retireAll i o q s) := by
  induction q generalizing s with
  | nil =>
    refine ⟨?_, fun _ _ => rfl, fun _ _ => rfl, by simp, by simp [State.retireAll], by simp [State.retireAll], rfl⟩
    rw [State.retireAll, ← hq]
  | cons h q ih =>
    obtain ⟨hout, hnq⟩ := List.nodup_cons.mp hn
    have same : ∀ x ∈ q, (s.retire i h (o (s.desc h))).desc x = s.desc x := fun x hx => by
      rw [retire_desc, if_neg fun e : x = h => hout (e ▸ hx)]
    have tail : ((s.retire i h (o (s.desc h))).stream i).queue = q := by
      rw [retire_stream, if_pos rfl, hq, List.erase_cons_head]
    obtain ⟨hstream, hothers, hdescs, hrecords, hfree, hclaims, hrest⟩ := ih _ tail hnq
    rw [State.retireAll]
    refine ⟨?_, ?_, ?_, ?_, ?_, ?_, ?_⟩
    · rw [hstream, retire_stream, if_pos rfl]
    · intro j hj
      rw [hothers j hj, retire_stream, if_neg hj]
    · intro x hx
      obtain ⟨hxh, hxq⟩ := not_or.mp fun e => hx (List.mem_cons.mpr e)
      rw [hdescs x hxq, retire_desc, if_neg hxh]
    · intro x hx
      rcases List.mem_cons.mp hx with rfl | hx
      · rw [hdescs x hout, retire_desc, if_pos rfl]
      · rw [hrecords x hx, same x hx]
    · rw [hfree, retire_freeList, List.flatMap_cons, List.append_assoc]
      exact congrArg _ (congrArg _ (List.flatMap_congr fun x hx => by rw [same x hx]))
    · rw [hclaims, retire_claims, List.flatMap_cons, List.append_assoc]
      exact congrArg _ (congrArg _ (List.flatMap_congr fun x hx => by rw [same x hx]))
    · rw [hrest, retire_eq]
      rfl

/-- Whatever the queue holds, retiring it is the life of that queue alone. -/
theorem retireAll_frame (i : StreamNo) (o : Descriptor → DoneOutcome) (q : List Handle) (s : State)
    (hq : (s.stream i).queue = q) : QueueFrame i s (State.retireAll i o q s) := by
  induction q generalizing s with
  | nil => exact QueueFrame.refl i s
  | cons h q ih =>
    refine (QueueFrame.retire _ (by simp [hq])).trans (ih _ ?_)
    rw [retire_stream, if_pos rfl, hq, List.erase_cons_head]

end Sys2Proof.Machine

/-! ## Opening, closing and configuring: the ownership entries (R4, R5) -/

namespace Sys2Proof.Machine

/-! ### The entries after OPEN and CLOSE -/

theorem posIndex_mem_iff {l : LaneNo} {k : SlotNo} {map : List (LaneNo × SlotNo)} :
    posIndex l k ∈ map.map (fun e => posIndex e.1 e.2) ↔ (l, k) ∈ map := by
  constructor
  · intro h
    obtain ⟨⟨l', k'⟩, hm, he⟩ := List.mem_map.mp h
    obtain ⟨rfl, rfl⟩ := posIndex_inj he
    exact hm
  · exact fun h => List.mem_map.mpr ⟨(l, k), h, rfl⟩

theorem claimPositions_posIndex (v : Vector (Option StreamNo) 64) (i : StreamNo) (map : List (LaneNo × SlotNo))
    (l : LaneNo) (k : SlotNo) :
    (claimPositions v i map).get (posIndex l k) = if (l, k) ∈ map then some i else v.get (posIndex l k) := by
  simp only [claimPositions_get, posIndex_mem_iff]

theorem openStream_txBase (s : State) (i : StreamNo) (o : Opening) (l : LaneNo) (k : SlotNo) :
    (s.openStream i o).txBase l k =
      if o.direction = .play ∧ o.overlay = false ∧ (l, k) ∈ o.map then some i else s.txBase l k := by
  simp only [State.openStream, State.txBase, Owners.take]
  cases o.direction <;> cases o.overlay <;> simp [claimPositions_posIndex]

theorem openStream_txOverlay (s : State) (i : StreamNo) (o : Opening) (l : LaneNo) (k : SlotNo) :
    (s.openStream i o).txOverlay l k =
      if o.direction = .play ∧ o.overlay = true ∧ (l, k) ∈ o.map then some i else s.txOverlay l k := by
  simp only [State.openStream, State.txOverlay, Owners.take]
  cases o.direction <;> cases o.overlay <;> simp [claimPositions_posIndex]

theorem openStream_rxBase (s : State) (i : StreamNo) (o : Opening) (l : LaneNo) (k : SlotNo) :
    (s.openStream i o).rxBase l k = if o.direction = .capture ∧ (l, k) ∈ o.map then some i else s.rxBase l k := by
  simp only [State.openStream, State.rxBase, Owners.take]
  cases o.direction <;> cases o.overlay <;> simp [claimPositions_posIndex]

theorem openStream_stream (s : State) (i j : StreamNo) (o : Opening) : (s.openStream i o).stream j =
    if j = i then (s.stream i).opened o (s.mapDomain o.map) else s.stream j :=
  State.stream_modStream s i j fun st => st.opened o (s.mapDomain o.map)

@[simp] theorem openStream_lane (s : State) (i : StreamNo) (o : Opening) (l : LaneNo) :
    (s.openStream i o).lane l = s.lane l := rfl

@[simp] theorem openStream_domain (s : State) (i : StreamNo) (o : Opening) (d : DomainId) :
    (s.openStream i o).domain d = s.domain d := by
  cases d <;> rfl

/-! ### What an opening has passed -/

/-- The ranges of R7, and that an overlay is a playing OVERRIDE stream. -/
structure Opening.InRange (o : Opening) : Prop where
  width : o.width ∈ [2, 3, 4]
  depth : 1 ≤ o.depth ∧ o.depth ≤ 8
  map : 1 ≤ o.map.length ∧ o.map.length ≤ 16 ∧ o.map.Nodup
  overlay : o.overlay = true → o.cls = .override ∧ o.direction = .play

theorem readOpening_inRange {p : List Byte} {o : Opening} (h : readOpening p = some o) : o.InRange := by
  unfold readOpening at h
  split at h
  · dsimp only at h
    split at h
    · next hc =>
      obtain ⟨hw, hd1, hd8, hm1, hm16, hn, hov⟩ := hc
      cases h
      exact ⟨hw, ⟨hd1, hd8⟩, ⟨hm1, hm16, hn⟩, hov⟩
    · cases h
  · cases h

theorem checkOpen_ok {s : State} {p : List Byte} {i : StreamNo} {o : Opening} (h : s.checkOpen p = .ok (i, o)) :
    (s.stream i).state = .closed ∧ o.InRange ∧ ∀ c ∈ s.openingChecks o, c.1 = true := by
  unfold State.checkOpen at h
  split at h
  · cases h
  · next j hj =>
    split at h
    · cases h
    · next o' ho =>
      split at h
      · cases h
      · next hf =>
        cases h
        obtain ⟨-, hst, -⟩ := State.checkStream_ok.mp hj
        exact ⟨by simpa using hst, readOpening_inRange ho, firstFailure_eq_none.mp hf⟩

/-- The checks of R8 that an opening has passed, read off the list. -/
structure Opening.Passed (o : Opening) (s : State) : Prop where
  oneDomain : ∀ e ∈ o.map, (s.lane e.1).domain = s.mapDomain o.map
  clocked : (s.domain (s.mapDomain o.map)).source ≠ .off
  enabled : ∀ e ∈ o.map, (s.lane e.1).enabledFor o.direction = true
  slots : ∀ e ∈ o.map, e.2.val < (s.domain (s.mapDomain o.map)).slots
  width : 8 * o.width ≤ (s.domain (s.mapDomain o.map)).width
  free : ∀ e ∈ o.map, s.roleFree o e = true

theorem openingChecks_passed {s : State} {o : Opening} (h : ∀ c ∈ s.openingChecks o, c.1 = true) : o.Passed s := by
  simp only [State.openingChecks, List.forall_mem_cons, List.all_eq_true, decide_eq_true_eq] at h
  obtain ⟨h1, h2, h3, h4, h5, h6, -⟩ := h
  exact ⟨h1, h2, h3, h4, h5, h6⟩

/-! ### OPEN -/

theorem not_holds_of_closed {st : Stream} (h : st.state = .closed) (dir : Direction) (ov : Bool) (e : LaneNo × SlotNo) :
    ¬ st.holds dir ov e := by
  simp [Stream.holds, Stream.isOpen, h]

/-- A role that was recorded exactly is recorded exactly after a CLOSED stream has taken it at free positions. -/
theorem role_taken_iff {i j : StreamNo} {x : Option StreamNo} {taken old new : Prop} [Decidable taken]
    (hold : x = some j ↔ old) (hfree : taken → x = none) (hi : j = i → ¬ old ∧ (new ↔ taken)) (hj : j ≠ i → (new ↔ old)) :
    (if taken then some i else x) = some j ↔ new := by
  by_cases e : j = i
  · obtain ⟨hno, hnew⟩ := hi e
    subst e
    by_cases ht : taken
    · simp [ht, hnew]
    · simp [ht, hnew, hold, hno]
  · rw [hj e, ← hold]
    by_cases ht : taken
    · simp [ht, hfree ht, Ne.symm e]
    · simp [ht]

theorem openStream_owners {s : State} {i : StreamNo} {o : Opening} (hs : s.OwnersOk) (hc : (s.stream i).state = .closed)
    (hr : o.InRange) (hp : o.Passed s) : (s.openStream i o).OwnersOk := by
  have other : ∀ {j : StreamNo}, j ≠ i → (s.openStream i o).stream j = s.stream j := fun h => by
    rw [openStream_stream, if_neg h]
  have this : (s.openStream i o).stream i = (s.stream i).opened o (s.mapDomain o.map) := by
    rw [openStream_stream, if_pos rfl]
  have holdsThis : ∀ dir ov e, ((s.openStream i o).stream i).holds dir ov e ↔
      o.direction = dir ∧ o.overlay = ov ∧ e ∈ o.map := fun dir ov e => by
    rw [this]
    simp [Stream.holds, Stream.isOpen, Stream.opened]
  refine ⟨fun l k j => ?_, fun l k j => ?_, fun l k j => ?_, fun j hj => ?_⟩
  · rw [openStream_txBase]
    refine role_taken_iff (hs.txBase l k j) (fun ⟨hd, hv, hm⟩ => ?_) ?_ fun e => by rw [other e]
    · simpa [State.roleFree, hd, hv] using hp.free _ hm
    · rintro rfl
      exact ⟨not_holds_of_closed hc _ _ _, holdsThis _ _ _⟩
  · rw [openStream_txOverlay]
    refine role_taken_iff (hs.txOverlay l k j) (fun ⟨hd, hv, hm⟩ => ?_) ?_ fun e => by rw [other e]
    · simpa [State.roleFree, hd, hv] using hp.free _ hm
    · rintro rfl
      exact ⟨not_holds_of_closed hc _ _ _, holdsThis _ _ _⟩
  · rw [openStream_rxBase]
    refine role_taken_iff (hs.rxBase l k j) (fun ⟨hd, hm⟩ => ?_) ?_ fun e => by rw [other e]
    · simpa [State.roleFree, hd] using hp.free _ hm
    · rintro rfl
      refine ⟨not_holds_of_closed hc _ _ _, (holdsThis _ _ _).trans ⟨fun ⟨hd, _, hm⟩ => ⟨hd, hm⟩, fun ⟨hd, hm⟩ => ⟨hd, ?_, hm⟩⟩⟩
      rw [Bool.eq_false_iff]
      intro hv
      rw [(hr.overlay hv).2] at hd
      cases hd
  · by_cases e : j = i
    · subst e
      rw [this]
      refine ⟨hr.overlay, hr.map, ⟨hr.width, ?_⟩, hr.depth, ?_, fun e he => ⟨hp.oneDomain e he, hp.enabled e he, ?_⟩⟩
      · rw [openStream_domain]; exact hp.width
      · rw [openStream_domain]; exact hp.clocked
      · rw [openStream_domain]; exact hp.slots e he
    · rw [other e] at hj ⊢
      exact (hs.fits j hj).congr rfl (by rw [openStream_domain]) fun _ _ => rfl

/-! ### CLOSE and the resets -/

/-- A role that was recorded exactly is recorded exactly once a stream has given it up. -/
theorem role_freed_iff {i j : StreamNo} {x : Option StreamNo} {old new : Prop} (hold : x = some j ↔ old)
    (hi : j = i → ¬ new) (hj : j ≠ i → (new ↔ old)) : (if x = some i then none else x) = some j ↔ new := by
  by_cases e : j = i
  · subst e
    by_cases hx : x = some j <;> simp [hx, hi rfl]
  · rw [hj e, ← hold]
    by_cases hx : x = some i
    · simp [hx, Ne.symm e]
    · simp [hx]

/-- A stream that closes and gives up its roles. -/
theorem ownersOk_of_released {s t : State} {i : StreamNo} (hs : s.OwnersOk) (hi : (t.stream i).state = .closed)
    (hj : ∀ j, j ≠ i → t.stream j = s.stream j) (ho : t.owners = s.owners.release i) (hl : ∀ l, t.lane l = s.lane l)
    (hd : ∀ d, t.domain d = s.domain d) : t.OwnersOk := by
  have shut : ∀ j, j = i → ∀ dir ov e, ¬ (t.stream j).holds dir ov e := fun j e => by
    rw [e]; exact not_holds_of_closed hi
  have kept : ∀ j, j ≠ i → ∀ dir ov e, (t.stream j).holds dir ov e ↔ (s.stream j).holds dir ov e := fun j e => by
    rw [hj j e]; exact fun _ _ _ => Iff.rfl
  refine ⟨fun l k j => ?_, fun l k j => ?_, fun l k j => ?_, fun j hopen => ?_⟩
  · rw [State.txBase, ho, Owners.release, freePositions_get]
    exact role_freed_iff (hs.txBase l k j) (fun e => shut j e _ _ _) fun e => kept j e _ _ _
  · rw [State.txOverlay, ho, Owners.release, freePositions_get]
    exact role_freed_iff (hs.txOverlay l k j) (fun e => shut j e _ _ _) fun e => kept j e _ _ _
  · rw [State.rxBase, ho, Owners.release, freePositions_get]
    exact role_freed_iff (hs.rxBase l k j) (fun e => shut j e _ _ _) fun e => kept j e _ _ _
  · by_cases e : j = i
    · simp [Stream.isOpen, e, hi] at hopen
    · rw [hj j e] at hopen ⊢
      exact (hs.fits j hopen).congr rfl (by rw [hd]) fun x _ => by rw [hl]

theorem State.stream_setOwners (s : State) (o : Owners) (j : StreamNo) :
    ({ s with owners := o } : State).stream j = s.stream j := rfl

/-- What CLOSE does before it frees the roles and empties the context. -/
def State.beforeClose (s : State) (i : StreamNo) : State :=
  (State.retireAll i (fun _ => .discarded) (s.stream i).queue (s.voidStream i)).detach i

theorem closeStream_eq (s : State) (i : StreamNo) : s.closeStream i =
    { (s.beforeClose i).modStream i (fun st => { st with state := .closed, ring := [], record := StreamRecord.empty }) with
      owners := (s.beforeClose i).owners.release i } := rfl

theorem closeStream_stream (s : State) (i j : StreamNo) : (s.closeStream i).stream j =
    if j = i then { (s.beforeClose i).stream i with state := .closed, ring := [], record := StreamRecord.empty }
    else (s.beforeClose i).stream j := by
  rw [closeStream_eq, State.stream_setOwners, State.stream_modStream]

theorem beforeClose_ownership (s : State) (i : StreamNo) : OwnershipFrame s (s.beforeClose i) :=
  ((OwnershipFrame.voidIf (.refl s) _).trans (retireAll_frame i _ _ _ rfl).ownership).trans (.of_eq rfl rfl rfl rfl rfl)

theorem closeStream_owners {s : State} (i : StreamNo) (hs : s.OwnersOk) : (s.closeStream i).OwnersOk := by
  refine ownersOk_of_released ((beforeClose_ownership s i).keeps hs) (i := i) ?_ (fun j e => ?_) rfl (fun _ => rfl)
    fun d => by cases d <;> rfl
  · rw [closeStream_stream, if_pos rfl]
  · rw [closeStream_stream, if_neg e]

/-- With every stream CLOSED and no position owned there is nothing to record. -/
theorem ownersOk_of_allClosed {s : State} (hc : ∀ i, (s.stream i).state = .closed) (ho : s.owners = Owners.none) :
    s.OwnersOk where
  txBase l k i := by
    simp [State.txBase, ho, Owners.none, not_holds_of_closed (hc i)]
  txOverlay l k i := by
    simp [State.txOverlay, ho, Owners.none, not_holds_of_closed (hc i)]
  rxBase l k i := by
    simp [State.rxBase, ho, Owners.none, not_holds_of_closed (hc i)]
  fits i h := by simp [Stream.isOpen, hc i] at h

theorem fullReset_owners (s : State) (cause : ResetCause) (lv : LineLevel) (csnLow : Bool) :
    (s.fullReset cause lv csnLow).OwnersOk :=
  ownersOk_of_allClosed (fun i => congrArg Stream.state (s.stream_mapStreams Stream.fullReset i)) rfl

theorem streamsReset_owners (s : State) : s.streamsReset.OwnersOk :=
  ownersOk_of_allClosed (fun i => congrArg Stream.state (s.stream_mapStreams Stream.streamsReset i)) rfl

/-! ### SET LANE and SET DOMAIN -/

/-- A lane that an open stream's map names is owned: what SET LANE and SET DOMAIN refuse by (R89, R108). -/
theorem laneOwned_of_mapped {s : State} {i : StreamNo} {e : LaneNo × SlotNo} (hs : s.OwnersOk)
    (ho : (s.stream i).isOpen = true) (he : e ∈ (s.stream i).map) : s.laneOwned e.1 = true := by
  rw [State.laneOwned, List.any_eq_true]
  refine ⟨e.2, List.mem_finRange _, ?_⟩
  cases hv : (s.stream i).overlay with
  | true =>
    have owned := (hs.txOverlay e.1 e.2 i).mpr ⟨ho, ((hs.fits i ho).overlay hv).2, hv, he⟩
    simp [owned]
  | false =>
    cases hd : (s.stream i).direction with
    | play =>
      have owned := (hs.txBase e.1 e.2 i).mpr ⟨ho, hd, hv, he⟩
      simp [owned]
    | capture =>
      have owned := (hs.rxBase e.1 e.2 i).mpr ⟨ho, hd, hv, he⟩
      simp [owned]

/-- A change of lanes and domains that no open stream names keeps the invariant. -/
theorem ownersOk_of_unused {s t : State} (hs : s.OwnersOk) (ho : t.owners = s.owners) (hst : ∀ i, t.stream i = s.stream i)
    (hl : ∀ l, s.laneOwned l = true → (t.lane l).wiring = (s.lane l).wiring)
    (hd : ∀ l, s.laneOwned l = true → (t.domain (s.lane l).domain).format = (s.domain (s.lane l).domain).format) :
    t.OwnersOk where
  txBase l k i := by rw [State.txBase, ho, hst]; exact hs.txBase l k i
  txOverlay l k i := by rw [State.txOverlay, ho, hst]; exact hs.txOverlay l k i
  rxBase l k i := by rw [State.rxBase, ho, hst]; exact hs.rxBase l k i
  fits i h := by
    rw [hst] at h ⊢
    have fit := hs.fits i h
    refine fit.congr rfl ?_ fun e he => hl _ (laneOwned_of_mapped hs h he)
    obtain ⟨e, he⟩ := List.exists_mem_of_length_pos fit.map.1
    rw [← (fit.lanes e he).1]
    exact hd _ (laneOwned_of_mapped hs h he)

theorem setLane_owners {s : State} {l : LaneNo} (c : LaneConfig) (hs : s.OwnersOk) (hl : s.laneOwned l = false) :
    (s.modLane l fun ln => ln.configure c).OwnersOk := by
  refine ownersOk_of_unused hs rfl (fun _ => rfl) (fun l' h => ?_) fun l' _ => by rw [State.modLane_domain]
  rw [State.lane_modLane_ne]
  rintro rfl
  rw [hl] at h
  cases h

theorem OwnershipFrame.setDomain_rest (s : State) (d : DomainId) (c : DomainConfig) :
    OwnershipFrame (s.modDomain d fun dm => dm.configure c) (s.setDomain d c) := by
  unfold State.setDomain State.breakAssemblies State.stopLanes
  dsimp only
  split
  · exact .lockTransition (.mapLanesOf (.mapLanesOf (.refl _) d _) d _) d
  · exact .mapLanesOf (.mapLanesOf (.refl _) d _) d _

theorem setDomain_owners {s : State} {d : DomainId} (c : DomainConfig) (hs : s.OwnersOk) (hd : s.domainOwned d = false) :
    (s.setDomain d c).OwnersOk := by
  refine (OwnershipFrame.setDomain_rest s d c).keeps (ownersOk_of_unused hs (by simp) (by simp) (by simp) fun l hl => ?_)
  rw [State.domain_modDomain_ne]
  intro e
  have : s.domainOwned d = true := List.any_eq_true.mpr ⟨l, List.mem_finRange _, by simp [e, hl]⟩
  rw [hd] at this
  cases this

end Sys2Proof.Machine

/-! ## Every command keeps the ownership entries (R4, R5) -/

namespace Sys2Proof.Machine

/-! ### Requests -/

theorem reply_owners {s : State} (hs : s.OwnersOk) (r : Request) (st : Status) (b : ReplyBody) : (s.reply r st b).OwnersOk :=
  ((OwnershipFrame.refl s).reply r st b).keeps hs

/-- A request taken, refused or acted on: the act alone has something to keep. -/
theorem takeKind_owners {s : State} {k : Kind} {sel : Request → Bool} {act : Request → State → State} (hs : s.OwnersOk)
    (hact : ∀ r u, u.OwnersOk → (act r u).OwnersOk) : (s.takeKind k sel act).OwnersOk := by
  have taken : ∀ rest, (s.modPort fun p => { p with inbound := rest }).OwnersOk := fun rest =>
    ((OwnershipFrame.refl s).modPort _).keeps hs
  rcases State.takeKind_cases s k sel act with h | ⟨r, rest, -, -, -, ⟨-, h⟩ | ⟨-, h⟩⟩
  · rw [h]; exact hs
  · rw [h, ← State.reply_taken]; exact reply_owners (taken rest) _ _ _
  · rw [h]; exact hact r _ (taken rest)

theorem answer_owners {α : Type} {s : State} {k : Kind} {r : Request} {check : Except Status α} {act : α → State}
    (hs : s.OwnersOk) (hact : ∀ x, check = .ok x → (act x).OwnersOk) : (s.answer k r check act).OwnersOk := by
  cases check with
  | error st => exact reply_owners hs _ _ _
  | ok x => exact hact x rfl

theorem checkSetLane_ok {s : State} {p : List Byte} {l : LaneNo} {c : LaneConfig} (h : s.checkSetLane p = .ok (l, c)) :
    s.laneOwned l = false := by
  unfold State.checkSetLane at h
  split at h
  · cases h
  · split at h
    · cases h
    · next hf =>
      cases h
      simpa using firstFailure_eq_none.mp hf _ (List.mem_cons_self ..)

theorem checkSetDomain_ok {s : State} {p : List Byte} {d : DomainId} {c : DomainConfig}
    (h : s.checkSetDomain p = .ok (d, c)) : s.domainOwned d = false := by
  unfold State.checkSetDomain at h
  split at h
  · cases h
  · split at h
    · cases h
    · next hf =>
      cases h
      simpa using firstFailure_eq_none.mp hf _ (List.mem_cons_self ..)

theorem execSetDomain_owners {s t : State} (hs : s.OwnersOk) (h : execSetDomain s = .next t) : t.OwnersOk := by
  cases h
  refine takeKind_owners hs fun r u hu => answer_owners hu fun x hx => reply_owners ?_ _ _ _
  exact setDomain_owners x.2 hu (checkSetDomain_ok hx)

theorem execSetLane_owners {s t : State} (hs : s.OwnersOk) (h : execSetLane s = .next t) : t.OwnersOk := by
  cases h
  refine takeKind_owners hs fun r u hu => answer_owners hu fun x hx => reply_owners ?_ _ _ _
  exact setLane_owners x.2 hu (checkSetLane_ok hx)

theorem execOpen_owners {s t : State} (hs : s.OwnersOk) (h : execOpen s = .next t) : t.OwnersOk := by
  cases h
  refine takeKind_owners hs fun r u hu => answer_owners hu fun x hx => reply_owners ?_ _ _ _
  obtain ⟨hc, hr, hp⟩ := checkOpen_ok hx
  exact openStream_owners hu hc hr (openingChecks_passed hp)

theorem execClose_owners {s t : State} (hs : s.OwnersOk) (h : execClose s = .next t) : t.OwnersOk := by
  cases h
  exact takeKind_owners hs fun r u hu => answer_owners hu fun i _ => reply_owners (closeStream_owners i hu) _ _ _

/-! ### Requests that leave the entries alone -/

/-- A stream that stays open keeps its shape when nothing but its state and flags change. -/
theorem startStream_ownership {s : State} {i : StreamNo} (hi : (s.stream i).state = .idle) :
    OwnershipFrame s (s.startStream i) :=
  .settle (.modStream_at (by simp [Stream.shape, Stream.isOpen, hi])) i

theorem drain_ownership (s : State) (i : StreamNo) : OwnershipFrame s (s.drain i) := by
  unfold State.drain
  split
  · next hs =>
    exact (OwnershipFrame.modStream_at (by simp [Stream.shape, Stream.isOpen, hs])).trans
      (QueueFrame.drainIfEmpty i _).ownership
  all_goals exact .refl s

theorem abort_ownership {s : State} {i : StreamNo} (ho : (s.stream i).isOpen = true) : OwnershipFrame s (s.abort i) := by
  have dropped : OwnershipFrame s ((s.voidStream i).modStream i fun st => { st with backlog := [] }) :=
    .modStream (.voidIf (.refl s) _) i _
  have queue : (((s.voidStream i).modStream i fun st => { st with backlog := [] }).stream i).queue = (s.stream i).queue := by
    rw [State.stream_modStream_same]
    rfl
  have retired := dropped.trans (retireAll_frame i Descriptor.abortOutcome _ _ queue).ownership
  unfold State.abort
  refine retired.trans (.modStream_at ?_)
  have still := (Stream.shape_eq_iff.mp (retired.streams i)).1
  rw [ho] at still
  simpa [Stream.shape, Stream.isOpen] using still

theorem submit_ownership (s : State) (p : List Byte) (i : StreamNo) (h : Handle) (a : Start) :
    OwnershipFrame s (s.submit p i h a) := by
  have taken : ∀ (u : State) (l : List PageNo), OwnershipFrame u { u with freeList := l } := fun _ _ =>
    .of_eq rfl rfl rfl rfl rfl
  unfold State.submit
  exact .settle (.trans (.modStream (.modDesc (.refl s) h _) i _) (taken _ _)) i

theorem put_ownership (s : State) (i : StreamNo) (h : Handle) (bs : List Byte) : OwnershipFrame s (s.put i h bs) := by
  have stored : ∀ mem, OwnershipFrame s { s with mem := mem } := fun _ => .of_eq rfl rfl rfl rfl rfl
  unfold State.put
  exact .settle (.modDesc (stored _) h _) i

/-! ### The commands, one by one -/

/-- A request whose act, once its check has passed, leaves the entries alone. -/
theorem takeKind_answer_owners {α : Type} {s : State} {k : Kind} {sel : Request → Bool} {check : State → List Byte → Except Status α}
    {act : Request → State → α → State} (hs : s.OwnersOk)
    (hact : ∀ r u x, check u r.payload = .ok x → OwnershipFrame u (act r u x)) :
    (s.takeKind k sel fun r u => u.answer k r (check u r.payload) (act r u)).OwnersOk :=
  takeKind_owners hs fun r u hu => answer_owners hu fun x hx => (hact r u x hx).keeps hu

theorem exec_owners {c : Instr} {s t : State} (hs : s.OwnersOk) (h : exec c s = .next t) : t.OwnersOk := by
  cases c with
  | pinReset ovr csnLow => cases h; exact fullReset_owners s _ _ _
  | csnFalling =>
    cases h
    split
    · exact hs
    · exact ((OwnershipFrame.refl s).modPort _).keeps hs
  | endOfExchange sdi =>
    cases h
    split
    · split
      · exact (endExchange_ownership s _ sdi).keeps hs
      · exact ((OwnershipFrame.refl s).modPort _).keeps hs
    · exact hs
  | unknownKind =>
    cases h
    unfold State.takeHead
    split
    · exact hs
    · split
      · exact (OwnershipFrame.reply (.modPort (.refl s) _) _ _ _).keeps hs
      · exact hs
  | identify => cases h; exact takeKind_owners hs fun r u hu => reply_owners hu _ _ _
  | status => cases h; exact takeKind_owners hs fun r u hu => reply_owners hu _ _ _
  | resetFull => cases h; exact takeKind_owners hs fun r u _ => fullReset_owners u _ _ _
  | resetStreams =>
    cases h
    refine takeKind_owners hs fun r u hu => ?_
    split
    · exact reply_owners (streamsReset_owners u) _ _ _
    · exact reply_owners hu _ _ _
  | setDomain => exact execSetDomain_owners hs h
  | queryTime => cases h; exact takeKind_answer_owners hs fun r u x _ => .reply (.refl u) _ _ _
  | setLane => exact execSetLane_owners hs h
  | setMarker => cases h; exact takeKind_answer_owners hs fun r u x _ => .reply (.modLane (.refl u) _ _) _ _ _
  | openStream => exact execOpen_owners hs h
  | startStream =>
    cases h
    refine takeKind_answer_owners hs fun r u i hi => .reply (startStream_ownership ?_) _ _ _
    obtain ⟨-, hidle, -⟩ := State.checkStream_ok.mp hi
    simpa using hidle
  | stopDrain => cases h; exact takeKind_answer_owners hs fun r u i _ => .reply (drain_ownership u i) _ _ _
  | stopAbort =>
    cases h
    exact takeKind_answer_owners hs fun r u i hi => .reply (abort_ownership (State.checkStream_ok.mp hi).2.1) _ _ _
  | closeStream => exact execClose_owners hs h
  | queryStream => cases h; exact takeKind_answer_owners hs fun r u i _ => .reply (.refl u) _ _ _
  | submit => cases h; exact takeKind_answer_owners hs fun r u x _ => .reply (submit_ownership u _ _ _ _) _ _ _
  | put => cases h; exact takeKind_answer_owners hs fun r u x _ => .reply (put_ownership u _ _ _) _ _ _
  | clearOverride =>
    cases h
    refine takeKind_owners hs fun r u hu => ?_
    split
    · exact reply_owners hu _ _ _
    · refine reply_owners (OwnershipFrame.keeps (s := u) ?_ hu) _ _ _
      exact .of_eq rfl rfl rfl rfl rfl
  | setArbitration =>
    cases h
    refine takeKind_owners hs fun r u hu => answer_owners hu fun x _ => reply_owners ?_ _ _ _
    exact OwnershipFrame.keeps (s := u) (.of_eq rfl rfl rfl rfl rfl) hu
  | grant =>
    cases h
    split
    · exact hs
    · split
      · exact hs
      · exact (grantTo_ownership s _).keeps hs
  | completion =>
    cases h
    split
    · exact hs
    · next m _ =>
      have idle : OwnershipFrame s { s with inFlight := none } := .of_eq rfl rfl rfl rfl rfl
      dsimp only
      split
      · exact idle.keeps hs
      · split
        · exact (idle.trans (completePlay_ownership _ m)).keeps hs
        · exact (idle.trans (completeCapture_ownership _ m _)).keeps hs
  | frameClosed d bits duration rx =>
    cases h
    split
    · split
      · split
        · exact (goodFrameClosed_ownership s d duration rx).keeps hs
        · exact (badFrameClosed_ownership s d).keeps hs
      · exact ((OwnershipFrame.refl s).modDomain d _).keeps hs
    · exact hs
  | lockTimeout d elapsed =>
    cases h
    split
    · exact (loseLock_ownership s d false).keeps hs
    · exact hs
  | goodRunTimeout d elapsed =>
    cases h
    split
    · exact ((OwnershipFrame.refl s).modDomain d _).keeps hs
    · exact hs
  | generatorBoundary d rx =>
    cases h
    split
    · exact (frameEvent_ownership s d rx).keeps hs
    · exact hs
  | assertionEdge =>
    cases h
    split
    · exact hs
    · refine (OwnershipFrame.raiseOnce ?_ _).keeps hs
      exact .of_eq rfl rfl rfl rfl rfl
  | deassertionEdge =>
    cases h
    split
    · exact hs
    · refine (OwnershipFrame.raiseOnce ?_ _).keeps hs
      exact .of_eq rfl rfl rfl rfl rfl
  | conversion =>
    cases h
    split
    · exact hs
    · split
      · exact (convert_ownership s _ _).keeps hs
      · exact hs

/-- Settles O57: the streams, lanes and domains change apart from the openings, but for OPEN, CLOSE and the resets, which
move the entries with them, and for SET LANE and SET DOMAIN, which are refused while a position is owned. -/
theorem stepKeepsOwners : Obligations.StepKeepsOwners := by
  intro s t hs h
  unfold step at h
  split at h
  · cases h; exact hs
  · refine exec_owners (OwnershipFrame.keeps (s := s) ?_ hs) h
    exact .of_eq rfl rfl rfl rfl rfl

end Sys2Proof.Machine

/-! ## Requests that name a stream (R1) -/

namespace Sys2Proof.Machine

/-! ### The fields they share -/

theorem streamOf_eq_some {b : Byte} {i : StreamNo} (h : b.toNat = i.val) : streamOf b = some i := by
  have : b.toNat < 12 := h ▸ i.isLt
  simp only [streamOf, this, dite_true, Option.some.injEq]
  exact Fin.ext h

theorem streamOf_eq_none {b : Byte} (h : 12 ≤ b.toNat) : streamOf b = none := by
  simp only [streamOf, Nat.not_lt.mpr h, dite_false]

@[simp] theorem byteAt_cons_zero (b : Byte) (p : List Byte) : byteAt (b :: p) 0 = b := rfl

@[simp] theorem byteAt_cons_succ (b : Byte) (p : List Byte) (k : Nat) : byteAt (b :: p) (k + 1) = byteAt p k := by
  simp [byteAt]

/-! ### Checks in order -/

theorem refusedInOrder_nil (out : Status → Prop) : refusedInOrder [] out := by
  intro pre ok st post h
  simp at h

theorem refusedInOrder_cons {p : Prop} {st : Status} {cs : List (Prop × Status)} {out : Status → Prop}
    (hfail : ¬ p → out st) (hpass : p → refusedInOrder cs out) : refusedInOrder ((p, st) :: cs) out := by
  intro pre ok st' post h hpre hok
  cases pre with
  | nil =>
    obtain ⟨⟨rfl, rfl⟩, -⟩ : (p = ok ∧ st = st') ∧ cs = post := by simpa using h
    exact hfail hok
  | cons c pre =>
    obtain ⟨rfl, htail⟩ : (p, st) = c ∧ cs = pre ++ (ok, st') :: post := by simpa using h
    exact hpass (hpre _ (List.mem_cons_self ..)) pre ok st' post htail (fun d hd => hpre d (List.mem_cons_of_mem _ hd)) hok

/-- Checks made by the model as `bs` are made as the claim's `cs` say, when the two agree one by one. -/
theorem refusedInOrder_of_firstFailure {cs : List (Prop × Status)} {bs : List (Bool × Status)} {out : Status → Prop}
    (h : List.Forall₂ (fun c b => (c.1 ↔ b.1 = true) ∧ c.2 = b.2) cs bs) (hout : ∀ st, firstFailure bs = some st → out st) :
    refusedInOrder cs out := by
  induction h with
  | nil => exact refusedInOrder_nil out
  | @cons c b cs bs hcb _ ih =>
    obtain ⟨p, st⟩ := c
    obtain ⟨ok, st'⟩ := b
    obtain ⟨hp, rfl⟩ := hcb
    refine refusedInOrder_cons (fun hn => hout _ ?_) fun hy => ih fun st' hf => hout _ ?_
    · rw [firstFailure_cons, if_neg fun e => hn (hp.mpr e)]
    · rw [firstFailure_cons, if_pos (hp.mp hy), hf]

theorem firstFailure_append {as bs : List (Bool × Status)} {st : Status} (h : firstFailure as = some st) :
    firstFailure (as ++ bs) = some st := by
  induction as with
  | nil => cases h
  | cons a as ih =>
    obtain ⟨ok, st'⟩ := a
    rw [firstFailure_cons] at h
    rw [List.cons_append, firstFailure_cons]
    split
    · next e => exact ih (by rwa [if_pos e] at h)
    · next e => rwa [if_neg e] at h

theorem State.checkStream_badField {s : State} {p : List Byte} {accepts : Stream → Bool}
    {own : StreamNo → Stream → List (Bool × Status)} (h : 12 ≤ (byteAt p 0).toNat) :
    s.checkStream p accepts own = .error .badField := by
  simp only [State.checkStream, streamOf_eq_none h]

theorem State.checkStream_fails {s : State} {p : List Byte} {accepts : Stream → Bool}
    {own : StreamNo → Stream → List (Bool × Status)} {i : StreamNo} {st : Status} (hi : (byteAt p 0).toNat = i.val)
    (h : firstFailure ((accepts (s.stream i), .badState) :: own i (s.stream i)) = some st) :
    s.checkStream p accepts own = .error st := by
  simp only [State.checkStream, streamOf_eq_some hi, h]

theorem State.checkStream_passes {s : State} {p : List Byte} {accepts : Stream → Bool}
    {own : StreamNo → Stream → List (Bool × Status)} {i : StreamNo} (hi : (byteAt p 0).toNat = i.val)
    (ha : accepts (s.stream i) = true) (ho : firstFailure (own i (s.stream i)) = none) :
    s.checkStream p accepts own = .ok i :=
  State.checkStream_ok.mpr ⟨streamOf_eq_some hi, ha, ho⟩

/-- The state once the oldest request has left the inbound queue, with `rest` behind it (R160). -/
def State.afterTaking (s : State) (rest : List Request) : State := s.modPort fun p => { p with inbound := rest }

@[simp] theorem State.afterTaking_stream (s : State) (rest : List Request) (i : StreamNo) :
    (s.afterTaking rest).stream i = s.stream i := rfl
@[simp] theorem State.afterTaking_desc (s : State) (rest : List Request) (h : Handle) :
    (s.afterTaking rest).desc h = s.desc h := rfl

@[simp] theorem State.reply_stream (s : State) (r : Request) (st : Status) (b : ReplyBody) (i : StreamNo) :
    (s.reply r st b).stream i = s.stream i := rfl

theorem State.reply_afterTaking (s : State) (rest : List Request) (r : Request) (st : Status) (b : ReplyBody) :
    (s.afterTaking rest).reply r st b = s.answered rest r st b := rfl

/-- A check that fails is answered with its status and the subject byte, and nothing else happens. -/
theorem takeKind_refused {α : Type} {s : State} {k : Kind} {sel : Request → Bool} {check : State → List Byte → Except Status α}
    {act : Request → State → α → State} {r : Request} {rest : List Request} {st : Status} (hin : s.port.inbound = r :: rest)
    (hk : kindOf r.kind = some k) (hsel : sel r = true) (hl : lengthFits k r.payload = true) (hsub : k.hasSubject = true)
    (hc : check (s.afterTaking rest) r.payload = .error st) :
    (s.takeKind k sel fun r u => u.answer k r (check u r.payload) (act r u)) =
      s.answered rest r st (.subject (byteAt r.payload 0)) := by
  rw [State.takeKind_act hin hk hsel hl, ← State.afterTaking, hc, State.answer_error, State.refuse, if_pos hsub,
    State.reply_afterTaking]

/-- A check that passes lets the request act. -/
theorem takeKind_acts {α : Type} {s : State} {k : Kind} {sel : Request → Bool} {check : State → List Byte → Except Status α}
    {act : Request → State → α → State} {r : Request} {rest : List Request} {x : α} (hin : s.port.inbound = r :: rest)
    (hk : kindOf r.kind = some k) (hsel : sel r = true) (hl : lengthFits k r.payload = true)
    (hc : check (s.afterTaking rest) r.payload = .ok x) :
    (s.takeKind k sel fun r u => u.answer k r (check u r.payload) (act r u)) =
      act r (s.afterTaking rest) x := by
  rw [State.takeKind_act hin hk hsel hl, ← State.afterTaking, hc, State.answer_ok]

/-- R1 for a request whose own checks begin with the generation: number, state, generation. -/
theorem streamRequest_refusals {α : Type} {s : State} {k : Kind} {sel : Request → Bool}
    {check : State → List Byte → Except Status α} {act : Request → State → α → State} {accepts : Stream → Bool}
    {own : State → StreamNo → Stream → List (Bool × Status)} {r : Request} {rest : List Request} {b g : Byte} {p : List Byte}
    (hin : s.port.inbound = r :: rest) (hk : kindOf r.kind = some k) (hp : r.payload = b :: g :: p) (hsel : sel r = true)
    (hl : lengthFits k r.payload = true) (hsub : k.hasSubject = true)
    (hcheck : ∀ (u : State) st, (u.checkStream r.payload accepts fun i st => generationCheck r.payload st :: own u i st) =
      .error st → check u r.payload = .error st) :
    let out : Out := .next (s.takeKind k sel fun r u => u.answer k r (check u r.payload) (act r u))
    (12 ≤ b.toNat → out = .next (s.answered rest r .badField (.subject b))) ∧
    ∀ i : StreamNo, b.toNat = i.val →
      refusedInOrder [(accepts (s.stream i) = true, .badState), (g = (s.stream i).generation, .stale)]
        fun st => out = .next (s.answered rest r st (.subject b)) := by
  have hb : byteAt r.payload 0 = b := by rw [hp]; rfl
  have hg : byteAt r.payload 1 = g := by rw [hp]; rfl
  have refused : ∀ st, check (s.afterTaking rest) r.payload = .error st →
      (.next (s.takeKind k sel fun r u => u.answer k r (check u r.payload) (act r u)) : Out) =
        .next (s.answered rest r st (.subject b)) := fun st hc => by
    rw [takeKind_refused hin hk hsel hl hsub hc, hb]
  refine ⟨fun h => refused _ (hcheck _ _ (State.checkStream_badField (by rwa [hb]))), fun i hi => ?_⟩
  refine refusedInOrder_of_firstFailure (bs := [(accepts (s.stream i), .badState), generationCheck r.payload (s.stream i)])
    ?_ fun st hf => refused _ (hcheck _ _ (State.checkStream_fails (hb ▸ hi) (firstFailure_append hf)))
  exact .cons ⟨Iff.rfl, rfl⟩ (.cons ⟨by simp [generationCheck, hg], rfl⟩ .nil)

theorem checkSubmit_error {s : State} {p : List Byte} {st : Status}
    (h : s.checkStream p (fun st => st.state = .idle || st.state = .running) (fun i st =>
      [ generationCheck p st,
        (decide (1 ≤ submitFrames p ∧ submitFrames p ≤ Config.maxFrames) && (startOf (byteAt p 6) (field4 p 7)).isSome &&
          decide (submitBytes p st ≤ Config.maxBytes), .badField),
        (decide (st.direction = .capture) || !s.newestLoading i, .stillLoading),
        (decide (st.queue.length < st.depth), .queueFull),
        (s.lowestFree.isSome, .poolEmpty),
        (decide (pagesFor (submitBytes p st) ≤ s.freeList.length), .pagesShort) ]) = .error st) :
    s.checkSubmit p = .error st := by
  simp only [State.checkSubmit, h]

theorem checkPut_error {s : State} {p : List Byte} {st : Status}
    (h : s.checkStream p (fun st => decide (st.direction = .play) && st.isOpen) (fun i st =>
      [ generationCheck p st, ((handleOf (byteAt p 2)).isSome, .badField), (s.isLoadingOf i (handleOf (byteAt p 2)), .notLoading),
        (s.fitsLoad (handleOf (byteAt p 2)) (putData p).length, .overlength) ]) = .error st) :
    s.checkPut p = .error st := by
  simp only [State.checkPut, h]

/-- OPEN has no generation: number, then state. -/
theorem checkOpen_error {s : State} {p : List Byte} {st : Status}
    (h : s.checkStream p (fun st => st.state = .closed) (fun _ _ => []) = .error st) : s.checkOpen p = .error st := by
  simp only [State.checkOpen, h]

/-- A STOP of three bytes whose mode is not the one given is not the STOP that names it. -/
theorem stop_not_named {p : List Byte} {m : Byte} (h : (p.length == 3 && p.getD 2 0 != m) = true) :
    (p.length == 3) = true ∧ (!(p.length == 3 && byteAt p 2 == m)) = true := by
  obtain ⟨hl, hm⟩ := Bool.and_eq_true_iff.mp h
  refine ⟨hl, ?_⟩
  rw [hl, Bool.true_and]
  exact hm

/-- Settles O25: each row is a taking whose check begins with `checkStream`. -/
theorem streamRequestCheckOrder : Obligations.StreamRequestCheckOrder := by
  refine ⟨?_, ?_⟩
  · intro k hk s r rest b g p hin hkind hp htakes
    simp only [streamTakings, List.mem_cons, List.not_mem_nil, or_false] at hk
    rcases hk with rfl | rfl | rfl | rfl | rfl | rfl | rfl
    · exact streamRequest_refusals (k := .startStream) (check := State.checkStart) (own := fun _ _ _ => [])
        hin (by rw [hkind]; rfl) hp rfl htakes rfl fun _ _ h => h
    · exact streamRequest_refusals (k := .closeStream) (check := State.checkClose) (own := fun _ _ _ => [])
        hin (by rw [hkind]; rfl) hp rfl htakes rfl fun _ _ h => h
    · exact streamRequest_refusals (k := .queryStream) (check := State.checkQueryStream) (own := fun _ _ _ => [])
        hin (by rw [hkind]; rfl) hp rfl htakes rfl fun _ _ h => h
    · obtain ⟨hl, hsel⟩ := stop_not_named htakes
      exact streamRequest_refusals (k := .stopStream) (check := State.checkStop)
        (own := fun _ _ _ => [(stopModeListed r.payload, .badField)]) hin (by rw [hkind]; rfl) hp hsel hl rfl fun _ _ h => h
    · obtain ⟨hl, hsel⟩ := stop_not_named htakes
      exact streamRequest_refusals (k := .stopStream) (check := State.checkStop)
        (own := fun _ _ _ => [(stopModeListed r.payload, .badField)]) hin (by rw [hkind]; rfl) hp hsel hl rfl fun _ _ h => h
    · exact streamRequest_refusals (k := .submit) (check := State.checkSubmit) hin (by rw [hkind]; rfl) hp rfl htakes rfl
        fun _ _ h => checkSubmit_error h
    · exact streamRequest_refusals (k := .put) (check := State.checkPut) hin (by rw [hkind]; rfl) hp rfl htakes rfl
        fun _ _ h => checkPut_error h
  · intro s r rest b p hin hkind hp h7 hlen
    have hb : byteAt r.payload 0 = b := by rw [hp]; rfl
    have refused : ∀ st, (s.afterTaking rest).checkOpen r.payload = .error st →
        exec .openStream s = .next (s.answered rest r st (.subject b)) := fun st hc => by
      have fits : lengthFits .openStream r.payload = true := by
        simp only [lengthFits, Bool.and_eq_true, decide_eq_true_eq, beq_iff_eq]
        exact ⟨h7, hlen⟩
      exact hb ▸ congrArg Host.Outcome.next (takeKind_refused hin (by rw [hkind]; rfl) rfl fits rfl hc)
    refine ⟨fun h => refused _ (checkOpen_error (State.checkStream_badField (by rwa [hb]))), fun i hi hst => ?_⟩
    refine refused _ (checkOpen_error (State.checkStream_fails (hb ▸ hi) ?_))
    have shut : ¬ decide ((s.stream i).state = .closed) = true := by simpa using hst
    exact if_neg shut

end Sys2Proof.Machine

/-! ## QUERY STREAM, STOP with mode DRAIN, and START (R10, R11, R17) -/

namespace Sys2Proof.Machine

/-! ### A request that passes -/

theorem generationCheck_holds {p : List Byte} {st : Stream} (h : byteAt p 1 = st.generation) :
    (generationCheck p st).1 = true := by
  simp [generationCheck, h]

theorem generationCheck_none {p : List Byte} {st : Stream} (h : byteAt p 1 = st.generation) :
    firstFailure [generationCheck p st] = none :=
  if_pos (generationCheck_holds h)

/-- A state that differs from `s` in the queue of requests by the request taken, and in other parts than the port, has the
port of the answered state once the reply is appended. -/
theorem reply_port {s u : State} {rest : List Request} (h : u.port = { s.port with inbound := rest }) (r : Request)
    (st : Status) (b : ReplyBody) : (u.reply r st b).port = s.port.answered rest r st b := by
  simp only [State.reply, State.appendEntry, State.modPort, h]
  rfl

theorem reply_eq {s u : State} {rest : List Request} (h : u.port = { s.port with inbound := rest }) (r : Request)
    (st : Status) (b : ReplyBody) : u.reply r st b = { u with port := s.port.answered rest r st b } := by
  rw [← reply_port h]
  rfl

/-! ### QUERY STREAM -/

theorem zeroPositions_eq (st : Stream) :
    st.zeroPositions = st.backlog.length - st.backlog.countP fun e => e.kind.isHeld := by
  have := List.length_eq_countP_add_countP (l := st.backlog) fun e => e.kind.isHeld
  simp only [Stream.zeroPositions]
  rw [this, Nat.add_sub_cancel_left]
  exact List.countP_congr fun e _ => by simp

/-- The snapshot with its two counts by direction. -/
theorem streamView_eq (s : State) (i : StreamNo) : s.streamView i =
    { s.streamView i with
      leadOrHeld := if (s.stream i).direction = .play then (s.stream i).ring.length
        else (s.stream i).backlog.countP (fun e => e.kind.isHeld) + (s.heldInFlight i).toNat
      zeroPositions := if (s.stream i).direction = .play then 0
        else (s.stream i).backlog.length - (s.stream i).backlog.countP fun e => e.kind.isHeld } := by
  cases hd : (s.stream i).direction with
  | play => simp only [State.streamView, hd, if_true, Stream.lead]
  | capture => simp [State.streamView, hd, State.heldCount, zeroPositions_eq]

/-- Settles O32. -/
theorem queryStreamReadsContext : Obligations.QueryStreamReadsContext := by
  intro s r rest b i hin hkind hp hi hst st held flying
  have flies : (s.afterTaking rest).heldInFlight i = flying := by
    change s.heldInFlight i = flying
    dsimp only [State.heldInFlight, flying]
    cases s.inFlight with
    | none => rfl
    | some m =>
      dsimp only
      rw [Bool.decide_and]
      cases m.kind with
      | none => rfl
      | some k => cases k <;> rfl
  have hc : (s.afterTaking rest).checkQueryStream r.payload = .ok i := by
    rw [hp]
    exact State.checkStream_passes hi (decide_eq_true hst) (generationCheck_none rfl)
  have acted := takeKind_acts (sel := anyRequest) (check := State.checkQueryStream)
    (act := fun r s i => s.reply r .ok (.queryStream (s.streamView i))) hin (by rw [hkind]; rfl) rfl
    (by rw [hp]; rfl) hc
  refine (congrArg Host.Outcome.next acted).trans ?_
  rw [State.reply_afterTaking, streamView_eq, flies]
  rfl

/-! ### STOP with mode DRAIN -/

/-- The three fields of a STOP payload, for a stream that is open. -/
theorem checkStop_eq {s : State} {p : List Byte} {i : StreamNo} (hi : (byteAt p 0).toNat = i.val)
    (ho : (s.stream i).state ≠ .closed) (hg : byteAt p 1 = (s.stream i).generation) :
    s.checkStop p = if stopModeListed p then .ok i else .error .badField := by
  have hopen : (s.stream i).isOpen = true := by simpa [Stream.isOpen] using ho
  have hgen := generationCheck_holds hg
  split
  · next hm =>
    exact State.checkStream_passes hi hopen (by
      rw [← Prod.mk.eta (p := generationCheck p (s.stream i)), firstFailure_cons, if_pos hgen, firstFailure_cons, if_pos hm]
      rfl)
  · next hm =>
    refine State.checkStream_fails hi ?_
    rw [firstFailure_cons, if_pos hopen, ← Prod.mk.eta (p := generationCheck p (s.stream i)), firstFailure_cons, if_pos hgen,
      firstFailure_cons, if_neg hm]

theorem drainIfEmpty_drains {s : State} {i : StreamNo} (hs : (s.stream i).state = .stopping) (hq : (s.stream i).queue = []) :
    s.drainIfEmpty i = (s.modStream i fun st =>
      { st with state := .idle, gapOpen := false, record := { st.record with drained := true } }).raiseOnce (.streamEvent i) :=
  if_pos ⟨hs, hq⟩

theorem drainIfEmpty_stays {s : State} {i : StreamNo} (h : (s.stream i).state ≠ .stopping ∨ (s.stream i).queue ≠ []) :
    s.drainIfEmpty i = s :=
  if_neg fun ⟨hs, hq⟩ => h.elim (· hs) (· hq)

theorem raiseOnce_eq (s : State) (c : Claim) :
    s.raiseOnce c = { s with claims := if c ∈ s.claims then s.claims else s.claims ++ [c] } := by
  unfold State.raiseOnce
  split
  · rfl
  · rfl

/-- R11 by state. -/
theorem drain_running_queued {s : State} {i : StreamNo} (hs : (s.stream i).state = .running) (hq : (s.stream i).queue ≠ []) :
    s.drain i = s.modStream i fun st => { st with state := .stopping } := by
  simp only [State.drain, hs]
  exact drainIfEmpty_stays (.inr (by simpa using hq))

theorem drain_running_empty {s : State} {i : StreamNo} (hs : (s.stream i).state = .running) (hq : (s.stream i).queue = []) :
    s.drain i = (s.modStream i fun st =>
      { st with state := .idle, gapOpen := false, record := { st.record with drained := true } }).raiseOnce
        (.streamEvent i) := by
  simp only [State.drain, hs]
  rw [drainIfEmpty_drains (by simp) (by simpa using hq), State.modStream_modStream]

theorem drain_resting {s : State} {i : StreamNo} (hs : (s.stream i).state = .stopping ∨ (s.stream i).state = .idle) :
    s.drain i = s := by
  rcases hs with hs | hs <;> simp only [State.drain, hs]

/-- Settles O29. -/
theorem stopDrainByState : Obligations.StopDrainByState := by
  intro s r rest b m i hin hkind hp hi
  have hk : kindOf r.kind = some .stopStream := by rw [hkind]; rfl
  have hl : lengthFits .stopStream r.payload = true := by rw [hp]; rfl
  have check : (s.stream i).state ≠ .closed → (s.afterTaking rest).checkStop r.payload =
      if stopModeListed r.payload then .ok i else .error .badField := fun ho =>
    checkStop_eq (by rw [hp]; exact hi) ho (by rw [hp]; rfl)
  have drained : m = 0 → (s.stream i).state ≠ .closed → exec .stopDrain s =
      .next (((s.afterTaking rest).drain i).reply r .ok (.stream i)) := fun hm ho => by
    subst hm
    have listed : stopModeListed r.payload = true := by rw [hp]; rfl
    refine congrArg Host.Outcome.next (takeKind_acts (check := State.checkStop) (act := fun r s i =>
      (s.drain i).reply r .ok (.stream i)) hin hk (by rw [isAbort, hp]; rfl) hl ?_)
    rw [check ho, if_pos listed]
  refine ⟨fun hm hs hq => ?_, fun hm hs hq => ?_, fun hm hs => ?_, fun hm ho => ?_⟩
  · rw [drained hm (by simp [hs]), drain_running_queued (s := s.afterTaking rest) hs hq]
    rfl
  · rw [drained hm (by simp [hs]), drain_running_empty (s := s.afterTaking rest) hs hq, raiseOnce_eq]
    rfl
  · rw [drained hm (by rcases hs with hs | hs <;> simp [hs]), drain_resting (s := s.afterTaking rest) hs]
    rfl
  · have unlisted : stopModeListed r.payload = false := by
      rw [hp]
      exact decide_eq_false (Nat.not_lt.mpr hm)
    have failed : (s.afterTaking rest).checkStop r.payload = .error .badField := by
      rw [check ho, unlisted]
      rfl
    have hb : byteAt r.payload 0 = b := by rw [hp]; rfl
    have unnamed : ∀ n : Byte, n.toNat < 2 → (r.payload.length == 3 && byteAt r.payload 2 == n) = false := by
      intro n hn
      rw [hp]
      refine Bool.and_eq_false_imp.mpr fun _ => beq_eq_false_iff_ne.mpr ?_
      rintro rfl
      exact absurd hn (Nat.not_lt.mpr hm)
    constructor
    · exact hb ▸ congrArg Host.Outcome.next (takeKind_refused (check := State.checkStop) hin hk
        (by rw [isAbort, unnamed 1 (by decide)]; rfl) hl rfl failed)
    · exact hb ▸ congrArg Host.Outcome.next (takeKind_refused (check := State.checkStop) hin hk
        (by rw [isDrain, unnamed 0 (by decide)]; rfl) hl rfl failed)

/-! ### START -/

/-- A queue that comes to rest changes nothing but streams, descriptors, free list and claims. -/
theorem QueueFrame.rest {i : StreamNo} {s t : State} (a : QueueFrame i s t) :
    t = { s with streams := t.streams, descs := t.descs, freeList := t.freeList, claims := t.claims } := by
  obtain ⟨h1, h2, h3, h4, h5, h6, h7, h8, h9, h10, h11, h12, -⟩ := a
  cases t
  cases s
  simp_all

theorem makeEligible_stream (s : State) (i : StreamNo) (h : Handle) (a : Option Handle) (t : FrameTime) :
    ∃ bl, (s.makeEligible i h a t).stream i = { s.stream i with backlog := bl } := by
  unfold State.makeEligible
  split
  · exact ⟨_, rfl⟩
  · unfold State.makeCaptureEligible
    dsimp only
    split
    · exact ⟨_, rfl⟩
    · exact ⟨_, State.stream_modStream_same _ i _⟩

theorem retireResolved_running {s : State} {i : StreamNo} (h : Handle) (hs : (s.stream i).state = .running) :
    (s.retireResolved i h).stream i = { s.stream i with queue := (s.stream i).queue.erase h } := by
  have still : ((s.retire i h (s.desc h).resolvedOutcome).stream i).state = .running := by
    rw [retire_stream, if_pos rfl]
    exact hs
  rw [State.retireResolved, drainIfEmpty_stays (.inl (by simp [still])), retire_stream, if_pos rfl]

/-- A RUNNING stream keeps its flags and its event record while its queue comes to rest: it never drains (R12). -/
theorem settleQueue_running {i : StreamNo} (t : FrameTime) (k : Nat) {s : State} (hs : (s.stream i).state = .running) :
    ∃ q bl, (State.settleQueue i t k s).stream i = { s.stream i with queue := q, backlog := bl } := by
  induction k generalizing s with
  | zero => exact ⟨_, _, rfl⟩
  | succ k ih =>
    have next : ∀ u : State, (∃ q bl, u.stream i = { s.stream i with queue := q, backlog := bl }) →
        ∃ q bl, (State.settleQueue i t k u).stream i = { s.stream i with queue := q, backlog := bl } := by
      rintro u ⟨q, bl, hu⟩
      obtain ⟨q', bl', hu'⟩ := ih (s := u) (by rw [hu]; exact hs)
      exact ⟨q', bl', by rw [hu', hu]⟩
    unfold State.settleQueue
    split
    · exact ⟨_, _, rfl⟩
    · split
      · exact next _ ⟨_, _, retireResolved_running _ hs⟩
      · split
        · exact ⟨_, _, rfl⟩
        · obtain ⟨bl, hb⟩ := makeEligible_stream s i ‹Handle› ‹Option Handle› t
          exact next _ ⟨_, bl, hb⟩

theorem settle_running {s : State} {i : StreamNo} (hs : (s.stream i).state = .running) :
    ∃ q bl, (s.settle i).stream i = { s.stream i with queue := q, backlog := bl } :=
  settleQueue_running _ _ hs

/-- With an empty queue or a LOADING head there is nothing to make eligible or retire (R32, R44). -/
theorem settle_loading {s : State} {i : StreamNo} (h : ∀ x ∈ (s.stream i).queue.head?, (s.desc x).state = .loading) :
    s.settle i = s := by
  refine settle_resting s i (fun x hx => by simp [Descriptor.spent, Descriptor.eligible, h x hx]) ?_
  unfold State.nextEligible
  split
  · cases hq : (s.stream i).queue with
    | nil => split <;> rfl
    | cons x q =>
      have hx : (s.desc x).state = .loading := h x (by simp [hq])
      split
      · simp [State.readyPlay, hx]
      · simp [State.readyCapture, Descriptor.fullyAssigned, Descriptor.eligible, hx]
  · rfl

/-- The context that START leaves, before its queue is looked at (R10). -/
def Stream.started (st : Stream) : Stream := { st with state := .running, sounding := false, gapOpen := false }

theorem State.startStream_eq (s : State) (i : StreamNo) : s.startStream i = (s.modStream i Stream.started).settle i := rfl

/-- Settles O27. -/
theorem startRunsStream : Obligations.StartRunsStream := by
  intro s r rest b g i hin hkind hp hi hidle hg
  have hc : (s.afterTaking rest).checkStart r.payload = .ok i := by
    rw [hp, hg]
    exact State.checkStream_passes hi (decide_eq_true hidle) (generationCheck_none rfl)
  have acted := takeKind_acts (sel := anyRequest) (check := State.checkStart)
    (act := fun r s i => (s.startStream i).reply r .ok (.stream i)) hin (by rw [hkind]; rfl) rfl (by rw [hp]; rfl) hc
  refine ⟨_, congrArg Host.Outcome.next acted, ?_⟩
  have run : ((s.afterTaking rest).modStream i Stream.started).stream i = (s.stream i).started :=
    State.stream_modStream_same (s.afterTaking rest) i _
  have frame : QueueFrame i ((s.afterTaking rest).modStream i Stream.started) ((s.afterTaking rest).startStream i) :=
    settle_frame _ i
  obtain ⟨q, bl, here⟩ := settle_running (congrArg Stream.state run)
  rw [run, ← State.startStream_eq] at here
  refine ⟨reply_port frame.port r _ _, congrArg Stream.state here, congrArg Stream.sounding here,
    congrArg Stream.gapOpen here, (congrArg Stream.record here).trans rfl, (congrArg Stream.ring here).trans rfl, fun j hj => ?_, fun h hn => ?_, ?_,
    fun hload => ?_⟩
  · exact (frame.others j hj).trans (State.stream_modStream_ne (s.afterTaking rest) _ hj)
  · exact frame.descs h (by rw [run]; exact hn)
  · exact congrArg (fun u : State => { u with port := (((s.afterTaking rest).startStream i).reply r .ok (.stream i)).port })
      frame.rest
  · have rests : (s.afterTaking rest).startStream i = (s.afterTaking rest).modStream i Stream.started :=
      (State.startStream_eq _ i).trans (settle_loading (by rw [run]; exact hload))
    rw [rests]
    rfl

end Sys2Proof.Machine

/-! ## STOP with mode ABORT, and CLOSE (R13 to R16, R48, R49) -/

namespace Sys2Proof.Machine

/-! ### Records, pages and claims of the descriptors retired -/

theorem leftPages_play {d : Descriptor} (h : d.direction = .play) : d.leftPages = d.pages.drop d.gone := by
  simp only [Descriptor.leftPages, h, Descriptor.heldPages]

theorem partClaim_play {d : Descriptor} (h : d.direction = .play) (x : Handle) : d.partClaim x = [] := by
  simp only [Descriptor.partClaim, h]

/-- The pages a capture descriptor has not begun to write (R61). -/
theorem leftPages_capture {d : Descriptor} (h : d.direction = .capture) (hg : d.gone = d.written / 512) :
    d.leftPages = d.pages.drop ((d.written + 511) / 512) := by
  simp only [Descriptor.leftPages, h, Descriptor.heldPages, Config.pageSize, List.tail_drop]
  split
  · rw [show (d.written + 511) / 512 = d.gone by omega]
  · rw [show (d.written + 511) / 512 = d.gone + 1 by omega]

theorem partClaim_capture {d : Descriptor} (h : d.direction = .capture) (hg : d.gone = d.written / 512) (x : Handle) :
    d.partClaim x = if d.written % 512 = 0 then [] else (d.pages[d.written / 512]?).toList.map fun p => Claim.data {
      stream := d.stream, generation := d.generation, handle := x, tag := d.tag, offset := 512 * (d.written / 512),
      count := d.written % 512, page := p } := by
  simp only [Descriptor.partClaim, h, Descriptor.heldPages, Config.pageSize, List.head?_drop, hg]
  rfl

/-- Nothing written: all the pages held go back, and no DATA claim stands for any (R49). -/
theorem leftPages_unwritten {d : Descriptor} (h : d.written = 0) : d.leftPages = d.pages.drop d.gone := by
  cases hd : d.direction <;> simp [Descriptor.leftPages, hd, h, Descriptor.heldPages]

theorem partClaim_unwritten {d : Descriptor} (h : d.written = 0) (x : Handle) : d.partClaim x = [] := by
  cases hd : d.direction <;> simp [Descriptor.partClaim, hd, h]

/-- Whatever goes ahead of them, the DONE claims stand in queue order (R44 step 4). -/
theorem filter_done_retired {f : Claim → Bool} (hdone : ∀ h, f (.done h) = true) (hdata : ∀ x, f (.data x) = false)
    (g : Handle → Descriptor) (q : List Handle) :
    (q.flatMap fun h => (g h).partClaim h ++ [.done h]).filter f = q.map .done := by
  have part : ∀ h, ((g h).partClaim h).filter f = [] := by
    intro h
    unfold Descriptor.partClaim
    split
    · rfl
    · split
      · rfl
      · simp [List.filter_eq_nil_iff, Descriptor.dataClaim, hdata]
  induction q with
  | nil => rfl
  | cons h q ih => simp [List.filter_append, part, hdone, ih]

/-- What ABORT leaves in a record (R13, R46). -/
theorem abort_record (d : Descriptor) : (d.retire d.abortOutcome).emptied =
    { d with
      state := .retired, gone := max d.gone d.pages.length
      outcome := if d.state = .active ∨ d.state = .waiting ∧ 0 < d.resolved then some .cut else some .discarded
      span := if d.state = .active ∨ d.state = .waiting ∧ 0 < d.resolved then d.span else none
      endFrame := if (d.state = .active ∨ d.state = .waiting ∧ 0 < d.resolved) ∧ 0 < d.resolved then
        d.span.map (fun S => S + BitVec.ofNat 32 (d.resolved - 1)) else none
      counts := { d.counts with unreached := d.frames - d.resolved } } := by
  by_cases hcut : d.state = .active ∨ d.state = .waiting ∧ 0 < d.resolved
  · simp only [Descriptor.emptied, Descriptor.retire, Descriptor.abortOutcome, hcut, if_true, true_and]
    by_cases hr : d.resolved = 0
    · simp [hr]
    · simp [hr, Nat.pos_of_ne_zero hr, frameOf]
  · simp only [Descriptor.emptied, Descriptor.retire, Descriptor.abortOutcome, hcut, if_false, false_and]
    simp

/-! ### ABORT -/

/-- The state in which ABORT begins to retire: move voided, backlog dropped (R14). -/
def State.beforeAbort (s : State) (i : StreamNo) : State :=
  (s.voidStream i).modStream i fun st => { st with backlog := [] }

theorem State.abort_eq (s : State) (i : StreamNo) : s.abort i =
    (State.retireAll i Descriptor.abortOutcome (s.stream i).queue (s.beforeAbort i)).modStream i fun st =>
      { st with state := .idle, gapOpen := false } := rfl

theorem beforeAbort_stream (s : State) (i : StreamNo) : (s.beforeAbort i).stream i = { s.stream i with backlog := [] } :=
  State.stream_modStream_same (s.voidStream i) i _

theorem beforeAbort_stream_ne (s : State) {i j : StreamNo} (h : j ≠ i) : (s.beforeAbort i).stream j = s.stream j :=
  State.stream_modStream_ne (s.voidStream i) _ h

/-- Settles O30: the queue is retired as `Retired` says, and abort adds what it does to the stream and the move. -/
theorem stopAbortRetiresQueue : Obligations.StopAbortRetiresQueue := by
  intro s r rest b i hin hkind hp hi ho hn
  have hc : (s.afterTaking rest).checkStop r.payload = .ok i := by
    rw [hp]
    exact (checkStop_eq (p := [b, (s.stream i).generation, 1]) (s := s.afterTaking rest) hi ho rfl).trans (if_pos rfl)
  have acted := takeKind_acts (sel := fun r => !isDrain r) (check := State.checkStop)
    (act := fun r s i => (s.abort i).reply r .ok (.stream i)) hin (by rw [hkind]; rfl) (by rw [isDrain, hp]; rfl)
    (by rw [hp]; rfl) hc
  have run := beforeAbort_stream (s.afterTaking rest) i
  have retired := retireAll_retired i Descriptor.abortOutcome (s.stream i).queue ((s.afterTaking rest).beforeAbort i)
    ((congrArg Stream.queue run).trans rfl) hn
  obtain ⟨w, hw⟩ : ∃ w, w = State.retireAll i Descriptor.abortOutcome (s.stream i).queue ((s.afterTaking rest).beforeAbort i) :=
    ⟨_, rfl⟩
  rw [← hw] at retired
  have ends : (s.afterTaking rest).abort i = w.modStream i fun st => { st with state := .idle, gapOpen := false } := by
    rw [hw]
    exact State.abort_eq _ i
  rw [ends] at acted
  have hfree : w.freeList = s.freeList ++ (s.stream i).queue.flatMap fun h => (s.desc h).leftPages := retired.freeList
  have hclaims : w.claims = s.claims ++ (s.stream i).queue.flatMap fun h => (s.desc h).partClaim h ++ [.done h] :=
    retired.claims
  refine ⟨_, congrArg Host.Outcome.next acted, ?_, fun j hj => ?_, ?_, fun h hh => ?_, fun h hh => ?_, ?_, ?_,
    fun _ hplay => ⟨?_, ?_⟩, fun _ hcap => ⟨?_, ?_⟩, ?_⟩
  · rw [State.reply_stream, State.stream_modStream_same, retired.stream, run]
    rfl
  · rw [State.reply_stream, State.stream_modStream_ne _ _ hj, retired.others j hj, beforeAbort_stream_ne _ hj]
    rfl
  · exact congrArg State.inFlight retired.rest
  · exact retired.descs h hh
  · have record := (retired.records h hh).trans (abort_record (s.desc h))
    refine record.trans ?_
    have gone := congrArg Descriptor.gone record
    simp only [Descriptor.mk.injEq, true_and, and_true]
    exact gone.symm
  · exact ⟨_, hclaims.symm⟩
  · refine (congrArg (List.filter _) hclaims).trans ?_
    rw [List.filter_append, filter_done_retired (fun _ => rfl) (fun _ => rfl)]
  · refine hclaims.trans (congrArg _ ?_)
    rw [← List.flatMap_pure_eq_map]
    exact List.flatMap_congr fun h hh => by rw [partClaim_play (hplay h hh)]; rfl
  · refine hfree.trans (congrArg _ ?_)
    exact List.flatMap_congr fun h hh => leftPages_play (hplay h hh)
  · refine hclaims.trans (congrArg _ ?_)
    refine List.flatMap_congr fun h hh => ?_
    obtain ⟨hdir, hgone, -⟩ := hcap h hh
    rw [partClaim_capture hdir hgone]
  · refine hfree.trans (congrArg _ ?_)
    refine List.flatMap_congr fun h hh => ?_
    obtain ⟨hdir, hgone, -⟩ := hcap h hh
    exact leftPages_capture hdir hgone
  · rw [reply_eq (s := s) (rest := rest) (by exact congrArg State.port retired.rest)]
    exact congrArg (fun u : State => { u with
      port := s.port.answered rest r .ok (.stream i), inFlight := w.inFlight
      streams := (w.modStream i fun st => { st with state := .idle, gapOpen := false }).streams }) retired.rest

/-! ### CLOSE -/

/-- The record of a descriptor that CLOSE retires before it has made any progress (R49). -/
theorem discarded_record {d e : Descriptor} (h : d.resolved = 0) (he : e = (d.retire .discarded).emptied) :
    e.state = .retired ∧ e.outcome = some .discarded ∧ e.span = none ∧ e.endFrame = none ∧
      e.counts = { d.counts with unreached := d.frames } := by
  subst he
  exact ⟨rfl, rfl, rfl, rfl, by simp [Descriptor.retire, Descriptor.emptied, h]⟩

/-- Settles O31: the queue is retired as `Retired` says, and close adds what it does to the roles, the claim, the move and
the context. -/
theorem closeReleasesEverything : Obligations.CloseReleasesEverything := by
  intro s r rest b i hin hkind hp hi hidle hn hfresh
  have hc : (s.afterTaking rest).checkClose r.payload = .ok i := by
    rw [hp]
    exact State.checkStream_passes hi (decide_eq_true hidle) (generationCheck_none rfl)
  have acted := takeKind_acts (sel := anyRequest) (check := State.checkClose)
    (act := fun r s i => (s.closeStream i).reply r .ok (.opening i (s.stream i).generation)) hin (by rw [hkind]; rfl) rfl
    (by rw [hp]; rfl) hc
  have retired := retireAll_retired i (fun _ => .discarded) (s.stream i).queue ((s.afterTaking rest).voidStream i) rfl hn
  obtain ⟨w, hw⟩ : ∃ w, w = State.retireAll i (fun _ => .discarded) (s.stream i).queue ((s.afterTaking rest).voidStream i) :=
    ⟨_, rfl⟩
  rw [← hw] at retired
  have detached : (s.afterTaking rest).beforeClose i = w.detach i := by rw [hw]; rfl
  have hs : w.stream i = { s.stream i with queue := [] } := retired.stream
  have howners : w.owners = s.owners := (congrArg State.owners retired.rest).trans rfl
  have hclaims : w.claims = s.claims ++ (s.stream i).queue.map .done := by
    refine retired.claims.trans (congrArg _ ?_)
    rw [← List.flatMap_pure_eq_map]
    refine List.flatMap_congr fun h hh => ?_
    obtain ⟨-, -, hw0⟩ := hfresh h hh
    exact (congrArg (· ++ [Claim.done h]) (partClaim_unwritten hw0 h)).trans rfl
  have closed := closeStream_eq (s.afterTaking rest) i
  rw [detached] at closed
  rw [closed] at acted
  refine ⟨_, congrArg Host.Outcome.next acted, ?_, fun j hj => ?_, fun l k => ?_, ?_, fun h hh => ?_, fun h hh => ?_, ?_, ?_, ?_⟩
  · rw [State.reply_stream, State.stream_setOwners, State.stream_modStream_same]
    exact congrArg (fun st : Stream => { st with state := .closed, ring := [], record := StreamRecord.empty }) hs
  · rw [State.reply_stream, State.stream_setOwners, State.stream_modStream_ne _ _ hj]
    exact retired.others j hj
  · have freed : ∀ v : Vector (Option StreamNo) 64, (freePositions v i).get (posIndex l k) =
        if v.get (posIndex l k) = some i then none else v.get (posIndex l k) := fun v => freePositions_get v i _
    rw [State.txBase, State.txBase, State.txOverlay, State.txOverlay, State.rxBase, State.rxBase, ← freed, ← freed, ← freed,
      ← howners]
    exact ⟨rfl, rfl, rfl⟩
  · exact congrArg State.inFlight retired.rest
  · exact retired.descs h hh
  · obtain ⟨-, hr0, -⟩ := hfresh h hh
    exact discarded_record hr0 (retired.records h hh)
  · refine retired.freeList.trans (congrArg _ (List.flatMap_congr fun h hh => ?_))
    obtain ⟨-, -, hw0⟩ := hfresh h hh
    exact leftPages_unwritten hw0
  · have event : (w.stream i).generation = (s.stream i).generation ∧ (w.stream i).record = (s.stream i).record := by
      rw [hs]; exact ⟨rfl, rfl⟩
    rw [← hclaims, ← event.1, ← event.2]
    rfl
  · rw [State.afterTaking_stream, reply_eq (s := s) (rest := rest) (by exact congrArg State.port retired.rest)]
    exact congrArg (fun u : State => { u with
      port := s.port.answered rest r .ok (.opening i (s.stream i).generation), inFlight := w.inFlight
      owners := w.owners.release i, claims := (w.detach i).claims
      streams := ((w.detach i).modStream i fun st =>
        { st with state := .closed, ring := [], record := StreamRecord.empty }).streams }) retired.rest

end Sys2Proof.Machine

/-! ## OPEN (R7, R8, R9) -/

namespace Sys2Proof.Machine

/-! ### The codes of an OPEN payload (Table 10-6, R174) -/

theorem byte_eq_zero_or_one {b : Byte} (h : b.toNat ≤ 1) : b = 0 ∨ b = 1 := by
  bv_omega

theorem directionOf_legal {b : Byte} (h : b.toNat ≤ 1) : directionOf b = some (if b = 0 then .play else .capture) := by
  rcases byte_eq_zero_or_one h with rfl | rfl <;> rfl

theorem directionOf_range {b : Byte} {d : Direction} (h : directionOf b = some d) : b.toNat ≤ 1 := by
  unfold directionOf at h
  split at h
  · omega
  · omega
  · cases h

theorem classOf_legal {b : Byte} (h : b.toNat ≤ 1) : classOf b = some (if b = 0 then .normal else .override) := by
  rcases byte_eq_zero_or_one h with rfl | rfl <;> rfl

theorem classOf_range {b : Byte} {c : StreamClass} (h : classOf b = some c) : b.toNat ≤ 1 := by
  unfold classOf at h
  split at h
  · omega
  · omega
  · cases h

theorem flagOf_legal {b : Byte} (h : b.toNat ≤ 1) : flagOf b = some (decide (b = 1)) := by
  rcases byte_eq_zero_or_one h with rfl | rfl <;> rfl

theorem flagOf_range {b : Byte} {f : Bool} (h : flagOf b = some f) : b.toNat ≤ 1 := by
  unfold flagOf at h
  split at h
  · omega
  · omega
  · cases h

theorem laneOf_eq_some_iff {b : Byte} {l : LaneNo} : laneOf b = some l ↔ l.val = b.toNat := by
  unfold laneOf
  split
  · simp [Fin.ext_iff, eq_comm]
  · next h => simp; have := l.isLt; omega

theorem slotOf_eq_some_iff {b : Byte} {k : SlotNo} : slotOf b = some k ↔ k.val = b.toNat := by
  unfold slotOf
  split
  · simp [Fin.ext_iff, eq_comm]
  · next h => simp; have := k.isLt; omega

/-! ### The map of an OPEN payload -/

/-- Lane and slot bytes in turn, as Table 10-8 places them. -/
def mapBytes (pairs : List (Byte × Byte)) : List Byte := pairs.flatMap fun e => [e.1, e.2]

theorem mapBytes_length (pairs : List (Byte × Byte)) : (mapBytes pairs).length = 2 * pairs.length := by
  induction pairs with
  | nil => rfl
  | cons e rest ih =>
    simp only [mapBytes, List.flatMap_cons, List.length_append, List.length_cons, List.length_nil] at ih ⊢
    omega

/-- A map is read exactly when it names the same lanes and slots as the bytes. -/
theorem mapOf_mapBytes {pairs : List (Byte × Byte)} {map : List (LaneNo × SlotNo)} :
    mapOf (mapBytes pairs) = some map ↔
      map.map (fun e => (e.1.val, e.2.val)) = pairs.map fun e => (e.1.toNat, e.2.toNat) := by
  induction pairs generalizing map with
  | nil =>
    simp only [mapBytes, List.flatMap_nil, mapOf, Option.some.injEq, List.map_nil, List.map_eq_nil_iff]
    exact eq_comm
  | cons e rest ih =>
    have read : mapOf (mapBytes (e :: rest)) = some map ↔
        ∃ l k m, laneOf e.1 = some l ∧ slotOf e.2 = some k ∧ mapOf (mapBytes rest) = some m ∧ (l, k) :: m = map := by
      simp only [mapBytes, List.flatMap_cons, List.cons_append, List.nil_append, mapOf]
      constructor
      · intro h
        split at h
        · next l k m hl hk hm => exact ⟨l, k, m, hl, hk, hm, Option.some.inj h⟩
        · cases h
      · rintro ⟨l, k, m, hl, hk, hm, rfl⟩
        simp only [hl, hk, hm]
    rw [read]
    cases map with
    | nil => simp
    | cons x xs =>
      simp only [laneOf_eq_some_iff, slotOf_eq_some_iff, ih, List.map_cons, List.cons.injEq, Prod.ext_iff]
      constructor
      · rintro ⟨l, k, m, hl, hk, hm, ⟨rfl, rfl⟩, rfl⟩
        exact ⟨⟨hl, hk⟩, hm⟩
      · rintro ⟨⟨hl, hk⟩, hm⟩
        exact ⟨x.1, x.2, xs, hl, hk, hm, ⟨rfl, rfl⟩, rfl⟩

/-- The same entries, in lanes and slots or in bytes: one repeats exactly when the other does. -/
theorem map_nodup_iff {pairs : List (Byte × Byte)} {map : List (LaneNo × SlotNo)}
    (h : map.map (fun e => (e.1.val, e.2.val)) = pairs.map fun e => (e.1.toNat, e.2.toNat)) : map.Nodup ↔ pairs.Nodup := by
  have inj : Function.Injective fun e : LaneNo × SlotNo => (e.1.val, e.2.val) := fun a b e => by
    simpa [Prod.ext_iff, Fin.ext_iff] using e
  have inj' : Function.Injective fun e : Byte × Byte => (e.1.toNat, e.2.toNat) := fun a b e => by
    simpa [Prod.ext_iff, ← BitVec.toNat_inj] using e
  rw [← List.nodup_map_iff inj, h, List.nodup_map_iff inj']

theorem map_range {pairs : List (Byte × Byte)} {map : List (LaneNo × SlotNo)}
    (h : map.map (fun e => (e.1.val, e.2.val)) = pairs.map fun e => (e.1.toNat, e.2.toNat)) :
    ∀ e ∈ pairs, e.1.toNat ≤ 7 ∧ e.2.toNat ≤ 7 := by
  intro e he
  have hm : (e.1.toNat, e.2.toNat) ∈ map.map fun e => (e.1.val, e.2.val) := h ▸ List.mem_map_of_mem he
  obtain ⟨x, -, hx⟩ := List.mem_map.mp hm
  obtain ⟨h1, h2⟩ := Prod.mk.inj hx
  have := x.1.isLt
  have := x.2.isLt
  omega

/-! ### The fields of R7 -/

/-- The payload of an OPEN, field by field (Table 10-8). -/
def openPayload (b bDir bCls bOv bWidth bDepth bCount : Byte) (pairs : List (Byte × Byte)) : List Byte :=
  [b, bDir, bCls, bOv, bWidth, bDepth, bCount] ++ mapBytes pairs

/-- The fields of an OPEN lie in the ranges of R7. -/
def OpenLegal (bDir bCls bOv bWidth bDepth : Byte) (pairs : List (Byte × Byte)) : Prop :=
  bDir.toNat ≤ 1 ∧ bCls.toNat ≤ 1 ∧ bOv.toNat ≤ 1 ∧ bWidth.toNat ∈ [2, 3, 4] ∧
    1 ≤ bDepth.toNat ∧ bDepth.toNat ≤ 8 ∧ 1 ≤ pairs.length ∧ pairs.length ≤ 16 ∧
    (∀ e ∈ pairs, e.1.toNat ≤ 7 ∧ e.2.toNat ≤ 7) ∧ pairs.Nodup ∧ (bOv = 1 → bCls = 1 ∧ bDir = 0)

/-- The opening that legal fields spell. -/
def openingOf (bDir bCls bOv bWidth bDepth : Byte) (map : List (LaneNo × SlotNo)) : Opening :=
  { direction := if bDir = 0 then .play else .capture, cls := if bCls = 0 then .normal else .override,
    overlay := decide (bOv = 1), width := bWidth.toNat, depth := bDepth.toNat, map := map }

section
variable {b bDir bCls bOv bWidth bDepth bCount : Byte} {pairs : List (Byte × Byte)} {map : List (LaneNo × SlotNo)}

theorem overlay_legal_iff (hd : bDir.toNat ≤ 1) (hc : bCls.toNat ≤ 1) :
    (decide (bOv = 1) = true → (if bCls = 0 then StreamClass.normal else .override) = .override ∧
      (if bDir = 0 then Direction.play else .capture) = .play) ↔ (bOv = 1 → bCls = 1 ∧ bDir = 0) := by
  rcases byte_eq_zero_or_one hd with rfl | rfl <;> rcases byte_eq_zero_or_one hc with rfl | rfl <;> simp

/-- What the model reads of an OPEN payload: a code or a map for each field, and the ranges. -/
theorem readOpening_openPayload {o : Opening} :
    readOpening (openPayload b bDir bCls bOv bWidth bDepth bCount pairs) = some o ↔
      ∃ dir cls ov map, directionOf bDir = some dir ∧ classOf bCls = some cls ∧ flagOf bOv = some ov ∧
        mapOf (mapBytes pairs) = some map ∧
        (bWidth.toNat ∈ [2, 3, 4] ∧ 1 ≤ bDepth.toNat ∧ bDepth.toNat ≤ Config.depthLimit ∧ 1 ≤ map.length ∧
          map.length ≤ Config.channels ∧ map.Nodup ∧ (ov = true → cls = .override ∧ dir = .play)) ∧
        o = { direction := dir, cls := cls, overlay := ov, width := bWidth.toNat, depth := bDepth.toNat, map := map } := by
  change readOpening (b :: bDir :: bCls :: bOv :: bWidth :: bDepth :: bCount :: mapBytes pairs) = some o ↔ _
  simp only [readOpening, byteAt_cons_succ, byteAt_cons_zero, List.drop_succ_cons, List.drop_zero]
  constructor
  · intro h
    split at h
    · next dir cls ov map h1 h2 h3 h4 =>
      split at h
      · next hc => exact ⟨dir, cls, ov, map, h1, h2, h3, h4, hc, (Option.some.inj h).symm⟩
      · cases h
    · cases h
  · rintro ⟨dir, cls, ov, map, h1, h2, h3, h4, hc, rfl⟩
    simp only [h1, h2, h3, h4]
    exact if_pos hc

/-- R7 as the model checks it is R7 as the claim states it. -/
theorem readOpening_eq_some_iff {o : Opening} :
    readOpening (openPayload b bDir bCls bOv bWidth bDepth bCount pairs) = some o ↔
      OpenLegal bDir bCls bOv bWidth bDepth pairs ∧ ∃ map : List (LaneNo × SlotNo),
        map.map (fun e => (e.1.val, e.2.val)) = pairs.map (fun e => (e.1.toNat, e.2.toNat)) ∧
        o = openingOf bDir bCls bOv bWidth bDepth map := by
  rw [readOpening_openPayload]
  constructor
  · rintro ⟨dir, cls, ov, map, h1, h2, h3, h4, ⟨hw, hd1, hd8, hm1, hm16, hn, hov⟩, rfl⟩
    have hd := directionOf_range h1
    have hc := classOf_range h2
    have hv := flagOf_range h3
    have hm := mapOf_mapBytes.mp h4
    have len : map.length = pairs.length := by simpa using congrArg List.length hm
    obtain rfl := Option.some.inj ((directionOf_legal hd).symm.trans h1)
    obtain rfl := Option.some.inj ((classOf_legal hc).symm.trans h2)
    obtain rfl := Option.some.inj ((flagOf_legal hv).symm.trans h3)
    exact ⟨⟨hd, hc, hv, hw, hd1, hd8, len ▸ hm1, len ▸ hm16, map_range hm, (map_nodup_iff hm).mp hn,
      (overlay_legal_iff hd hc).mp hov⟩, map, hm, rfl⟩
  · rintro ⟨⟨hd, hc, hv, hw, hd1, hd8, hm1, hm16, -, hn, hov⟩, map, hm, rfl⟩
    have len : map.length = pairs.length := by simpa using congrArg List.length hm
    exact ⟨_, _, _, map, directionOf_legal hd, classOf_legal hc, flagOf_legal hv, mapOf_mapBytes.mpr hm,
      ⟨hw, hd1, hd8, len ▸ hm1, len ▸ hm16, (map_nodup_iff hm).mpr hn, (overlay_legal_iff hd hc).mpr hov⟩, rfl⟩

theorem lengthFits_openPayload (h : bCount.toNat = pairs.length) :
    lengthFits .openStream (openPayload b bDir bCls bOv bWidth bDepth bCount pairs) = true := by
  have len : (openPayload b bDir bCls bOv bWidth bDepth bCount pairs).length = 7 + 2 * pairs.length := by
    rw [openPayload, List.length_append, mapBytes_length]
    rfl
  have count : byteAt (openPayload b bDir bCls bOv bWidth bDepth bCount pairs) 6 = bCount := rfl
  simp only [lengthFits, Bool.and_eq_true, decide_eq_true_eq, beq_iff_eq, len, count, h]
  exact ⟨Nat.le_add_right _ _, trivial⟩

end

/-! ### The checks of R8 -/

theorem mapDomain_eq {s : State} {map : List (LaneNo × SlotNo)} (h : 1 ≤ map.length) :
    s.mapDomain map = (s.lane (map.headD (0, 0)).1).domain := by
  cases map with
  | nil => cases h
  | cons e rest => rfl

theorem enabledFor_eq (ln : Lane) (dir : Direction) :
    ln.enabledFor dir = if dir = .play then ln.txEnable else ln.rxEnable := by
  cases dir <;> rfl

/-- The role that an opening takes at a position (R4). -/
def State.roleOf (s : State) (o : Opening) (e : LaneNo × SlotNo) : Option StreamNo :=
  if o.direction = .capture then s.rxBase e.1 e.2 else if o.overlay then s.txOverlay e.1 e.2 else s.txBase e.1 e.2

theorem roleFree_iff (s : State) (o : Opening) (e : LaneNo × SlotNo) : s.roleFree o e = true ↔ s.roleOf o e = none := by
  unfold State.roleFree State.roleOf
  cases o.direction <;> cases o.overlay <;> simp

/-- R8 as the claim states it: the checks that OPEN makes in this order, with the domain `d` of the first lane. -/
def State.openingConditions (s : State) (o : Opening) (d : DomainId) : List (Prop × Status) :=
  [ (∀ e ∈ o.map, (s.lane e.1).domain = d, .domainMismatch),
    ((s.domain d).source ≠ .off, .domainOff),
    (∀ e ∈ o.map, (if o.direction = .play then (s.lane e.1).txEnable else (s.lane e.1).rxEnable) = true, .laneDisabled),
    (∀ e ∈ o.map, e.2.val < (s.domain d).slots, .badField),
    (8 * o.width ≤ (s.domain d).width, .widthMismatch),
    (∀ e ∈ o.map, s.roleOf o e = none, .slotTaken) ]

theorem openingChecks_forall₂ (s : State) (o : Opening) :
    List.Forall₂ (fun c b => (c.1 ↔ b.1 = true) ∧ c.2 = b.2) (s.openingConditions o (s.mapDomain o.map))
      (s.openingChecks o) := by
  refine .cons ⟨by simp, rfl⟩ (.cons ⟨by simp, rfl⟩ (.cons ⟨?_, rfl⟩ (.cons ⟨by simp, rfl⟩ (.cons ⟨by simp, rfl⟩
    (.cons ⟨?_, rfl⟩ .nil)))))
  · simp only [List.all_eq_true, enabledFor_eq]
  · simp only [List.all_eq_true, roleFree_iff]

/-- All of the claim's checks hold exactly when the model's do. -/
theorem firstFailure_none_of_forall₂ {cs : List (Prop × Status)} {bs : List (Bool × Status)}
    (h : List.Forall₂ (fun c b => (c.1 ↔ b.1 = true) ∧ c.2 = b.2) cs bs) (hc : ∀ c ∈ cs, c.1) : firstFailure bs = none := by
  induction h with
  | nil => rfl
  | @cons c b cs bs hcb _ ih =>
    have hb : b.1 = true := hcb.1.mp (hc c (List.mem_cons_self ..))
    rw [← Prod.mk.eta (p := b), firstFailure_cons, if_pos hb]
    exact ih fun x hx => hc x (List.mem_cons_of_mem _ hx)

theorem checkOpen_unread {s : State} {p : List Byte} {i : StreamNo} (hi : (byteAt p 0).toNat = i.val)
    (hst : (s.stream i).state = .closed) (ho : readOpening p = none) : s.checkOpen p = .error .badField := by
  have passes : s.checkStream p (fun st => st.state = .closed) (fun _ _ => []) = .ok i :=
    State.checkStream_passes hi (decide_eq_true hst) rfl
  simp only [State.checkOpen, passes, ho]

theorem checkOpen_read {s : State} {p : List Byte} {i : StreamNo} {o : Opening} (hi : (byteAt p 0).toNat = i.val)
    (hst : (s.stream i).state = .closed) (ho : readOpening p = some o) :
    (∀ st, firstFailure (s.openingChecks o) = some st → s.checkOpen p = .error st) ∧
      (firstFailure (s.openingChecks o) = none → s.checkOpen p = .ok (i, o)) := by
  have passes : s.checkStream p (fun st => st.state = .closed) (fun _ _ => []) = .ok i :=
    State.checkStream_passes hi (decide_eq_true hst) rfl
  constructor
  · intro st hf
    simp only [State.checkOpen, passes, ho, hf]
  · intro hf
    simp only [State.checkOpen, passes, ho, hf]

/-- Settles O26. -/
theorem openEffect : Obligations.OpenEffect := by
  intro s r rest b bDir bCls bOv bWidth bDepth bCount pairs i hin hkind hp hcount hi hst legal
  have hpay : r.payload = openPayload b bDir bCls bOv bWidth bDepth bCount pairs := hp
  have hk : kindOf r.kind = some .openStream := by rw [hkind]; rfl
  have hl : lengthFits .openStream r.payload = true := by
    rw [hpay]
    exact lengthFits_openPayload hcount
  have hb : byteAt r.payload 0 = b := by rw [hpay]; rfl
  have refused : ∀ st, (s.afterTaking rest).checkOpen r.payload = .error st →
      exec .openStream s = .next (s.answered rest r st (.subject b)) := fun st hc =>
    hb ▸ congrArg Host.Outcome.next (takeKind_refused (check := State.checkOpen) hin hk rfl hl rfl hc)
  refine ⟨fun hill => refused _ (checkOpen_unread (hb ▸ hi) hst ?_), ?_⟩
  · rw [hpay, Option.eq_none_iff_forall_ne_some]
    exact fun o ho => hill (readOpening_eq_some_iff.mp ho).1
  · intro map hlegal hmap direction overlay d role checks
    have hread : readOpening r.payload = some (openingOf bDir bCls bOv bWidth bDepth map) := by
      rw [hpay]
      exact readOpening_eq_some_iff.mpr ⟨hlegal, map, hmap, rfl⟩
    obtain ⟨fails, passes⟩ := checkOpen_read (s := s.afterTaking rest) (hb ▸ hi) hst hread
    have first : (s.afterTaking rest).mapDomain (openingOf bDir bCls bOv bWidth bDepth map).map = d := by
      obtain ⟨-, -, -, -, -, -, hlen, -⟩ := hlegal
      have len : map.length = pairs.length := by simpa using congrArg List.length hmap
      exact mapDomain_eq (len ▸ hlen)
    have agree : List.Forall₂ (fun c b => (c.1 ↔ b.1 = true) ∧ c.2 = b.2) checks
        ((s.afterTaking rest).openingChecks (openingOf bDir bCls bOv bWidth bDepth map)) := by
      have := openingChecks_forall₂ (s.afterTaking rest) (openingOf bDir bCls bOv bWidth bDepth map)
      rw [first] at this
      exact this
    refine ⟨refusedInOrder_of_firstFailure agree fun st hf => refused st (fails st hf), fun hall => ?_⟩
    have acted := takeKind_acts (sel := anyRequest) (check := State.checkOpen)
      (act := fun r s x => (s.openStream x.1 x.2).reply r .ok (.opening x.1 ((s.stream x.1).generation + 1))) hin hk rfl hl
      (passes (firstFailure_none_of_forall₂ agree hall))
    refine ⟨_, congrArg Host.Outcome.next acted, ?_, fun l k => ⟨?_, ?_, ?_⟩⟩
    · rw [reply_eq (s := s) (rest := rest) rfl, State.openStream, first]
      rfl
    · exact openStream_rxBase (s.afterTaking rest) i (openingOf bDir bCls bOv bWidth bDepth map) l k
    · exact openStream_txOverlay (s.afterTaking rest) i (openingOf bDir bCls bOv bWidth bDepth map) l k
    · exact openStream_txBase (s.afterTaking rest) i (openingOf bDir bCls bOv bWidth bDepth map) l k

end Sys2Proof.Machine

/-! ## The pools: descriptor records -/

namespace Sys2Proof.Machine

/-! ### Sizes, pages and counts of one record -/

theorem Descriptor.eligible_iff {d : Descriptor} : d.eligible = true ↔ d.state = .waiting ∨ d.state = .active := by
  simp [Descriptor.eligible]

theorem Descriptor.live_of_eligible {d : Descriptor} (h : d.eligible = true) : d.state.live = true := by
  rcases Descriptor.eligible_iff.mp h with e | e <;> rw [e] <;> rfl

theorem Descriptor.not_eligible_of_ready {d : Descriptor} (h : d.state = .ready) : d.eligible = false := by
  simp [Descriptor.eligible, h]

theorem DescState.ne_free_of_live {st : DescState} (h : st.live = true) : st ≠ .free := by
  rintro rfl; cases h

/-- What the size of a record says in numbers (R55, R56). -/
structure Descriptor.Sized (d : Descriptor) : Prop where
  frames : 1 ≤ d.frames ∧ d.frames ≤ 8192
  bytes : d.bytes = d.frames * d.frameSize
  range : 1 ≤ d.bytes ∧ d.bytes ≤ 32768
  pages : d.pages.length = pagesFor d.bytes

theorem Descriptor.Ok.sized {d : Descriptor} (h : d.Ok) (hs : d.state.live = true) : d.Sized := by
  obtain ⟨h1, h2, h3, h4, h5, h6⟩ := h.size (DescState.ne_free_of_live hs)
  exact ⟨⟨h1, h2⟩, h3, ⟨h4, h5⟩, h6⟩

/-- An offset of whole frames lies within the pages (R56). -/
theorem Descriptor.Sized.entry_le {d : Descriptor} (h : d.Sized) {r : Nat} (hr : r ≤ d.frames) :
    r * d.frameSize / 512 ≤ d.pages.length := by
  have fits : r * d.frameSize ≤ d.bytes := h.bytes ▸ Nat.mul_le_mul_right _ hr
  rw [h.pages, pagesFor, Config.pageSize]
  omega

theorem Descriptor.Sized.doneEntries_le {d : Descriptor} (h : d.Sized) (r : Nat) : d.doneEntries r ≤ d.pages.length := by
  unfold Descriptor.doneEntries
  split
  · exact Nat.le_refl _
  · next hr => exact h.entry_le (by omega)

theorem Descriptor.Sized.doneEntries_mono {d : Descriptor} (h : d.Sized) {r r' : Nat} (hr : r ≤ r') :
    d.doneEntries r ≤ d.doneEntries r' := by
  by_cases hd : d.frames ≤ r'
  · have full : d.doneEntries r' = d.pages.length := if_pos hd
    rw [full]
    exact h.doneEntries_le r
  · unfold Descriptor.doneEntries
    rw [if_neg hd, if_neg (by omega)]
    exact Nat.div_le_div_right (Nat.mul_le_mul_right _ hr)

theorem Descriptor.Sized.doneEntries_zero {d : Descriptor} (h : d.Sized) : d.doneEntries 0 = 0 := by
  have := h.frames.1
  unfold Descriptor.doneEntries
  rw [if_neg (by omega)]
  simp

/-- A record that is eligible keeps to Table 2-1 when its own part of it holds. -/
theorem Descriptor.Ok.of_eligible {d : Descriptor} (he : d.eligible = true) (size : d.Sized)
    (side : (d.direction = .play → d.counts.stored = 0 ∧ d.counts.lost = 0) ∧
      (d.direction = .capture → d.counts.sounded = 0 ∧ d.counts.muted = 0 ∧ d.counts.skipped = 0))
    (live : d.counts.unreached = 0 ∧ d.counts.resolved = d.resolved ∧ d.resolved ≤ d.frames ∧ d.outcome = none ∧ d.endFrame = none)
    (span : d.span.isSome = true) (loaded : d.direction = .play → d.loaded = d.bytes)
    (play : d.direction = .play → d.gone = d.doneEntries d.resolved)
    (capture : d.direction = .capture → d.resolved ≤ d.assigned ∧ d.assigned ≤ d.frames ∧ d.gone = d.written / 512 ∧
      (d.written = d.resolved * d.frameSize ∨ d.written = 0 ∧ d.counts.late = d.frames ∧ d.resolved = d.frames)) : d.Ok := by
  have shut : d.state ≠ .free ∧ d.state ≠ .retired ∧ ¬ (d.state = .loading ∨ d.state = .ready) ∧ d.state ≠ .loading := by
    rcases Descriptor.eligible_iff.mp he with e | e <;> simp [e]
  obtain ⟨hfree, hret, hfresh, hload⟩ := shut
  exact
    { blank := fun e => absurd e hfree
      size := fun _ => ⟨size.frames.1, size.frames.2, size.bytes, size.range.1, size.range.2, size.pages⟩
      side := side
      live := fun _ => live
      retired := fun e => absurd e hret
      fresh := fun e => absurd e hfresh
      loading := fun e => absurd e hload
      loaded := fun _ _ => loaded
      eligible := fun _ => span
      play := fun _ => play
      capture := fun _ => capture }

/-- A page list from entry `g` on is its part below entry `n` and what is left of it (R58). -/
theorem drop_split {α : Type} (l : List α) (g n : Nat) : l.drop g = (l.take n).drop g ++ l.drop (max g n) := by
  rcases Nat.le_total g n with h | h
  · rw [Nat.max_eq_right h]
    conv => lhs; rw [← List.take_append_drop n l]
    rw [List.drop_append, List.length_take]
    by_cases hn : n ≤ l.length
    · rw [show g - min n l.length = 0 by omega, List.drop_zero]
    · rw [List.drop_eq_nil_of_le (show l.length ≤ n by omega), List.drop_nil]
  · have below : (l.take n).drop g = [] := List.drop_eq_nil_of_le (by rw [List.length_take]; omega)
    rw [Nat.max_eq_left h, below, List.nil_append]

/-! ### One change of a record -/

/-- The next `k` positions of a play record are resolved with one outcome (R37, R38, R35, R58). -/
def Descriptor.resolvePlay (d : Descriptor) (o : PlayOutcome) (k : Nat) : Descriptor :=
  { d with
    resolved := d.resolved + k, counts := d.counts.addPlay o k, gone := max d.gone (d.doneEntries (d.resolved + k)) }

/-- The pages that these resolutions end (R58). -/
def Descriptor.endedPages (d : Descriptor) (k : Nat) : List PageNo :=
  (d.pages.take (d.doneEntries (d.resolved + k))).drop d.gone

theorem State.release_modDesc (s : State) (h : Handle) (f : Descriptor → Descriptor) (ps : List PageNo) :
    (s.release ps).modDesc h f = (s.modDesc h f).release ps := rfl

theorem State.resolvePlay_eq (s : State) (h : Handle) (o : PlayOutcome) (k : Nat) : s.resolvePlay h o k =
    (s.modDesc h fun d => d.resolvePlay o k).release ((s.desc h).endedPages k) := by
  simp only [State.resolvePlay, State.releaseEntries, State.desc_modDesc_same]
  rw [State.release_modDesc, State.modDesc_modDesc, State.modDesc_congr (g := fun d => d.resolvePlay o k) rfl]
  rfl

theorem Descriptor.heldPages_resolvePlay (d : Descriptor) (o : PlayOutcome) (k : Nat) :
    d.heldPages = d.endedPages k ++ (d.resolvePlay o k).heldPages :=
  drop_split _ _ _

theorem Counts.addPlay_spec (c : Counts) (o : PlayOutcome) (k : Nat) :
    (c.addPlay o k).resolved = c.resolved + k ∧ (c.addPlay o k).unreached = c.unreached ∧
      (c.addPlay o k).stored = c.stored ∧ (c.addPlay o k).lost = c.lost := by
  cases o <;> simp only [Counts.addPlay, Counts.resolved, and_true] <;> omega

theorem Counts.addCapture_spec (c : Counts) (k : EntryKind) :
    (c.addCapture k).resolved = c.resolved + 1 ∧ (c.addCapture k).unreached = c.unreached ∧
      (c.addCapture k).sounded = c.sounded ∧ (c.addCapture k).muted = c.muted ∧ (c.addCapture k).skipped = c.skipped := by
  cases k <;> simp only [Counts.addCapture, Counts.resolved, and_true] <;> omega

/-- Resolving keeps an eligible play record (R37, R38, R46, R58). -/
theorem Descriptor.Ok.resolvePlay {d : Descriptor} (h : d.Ok) (he : d.eligible = true) (hd : d.direction = .play)
    (o : PlayOutcome) {k : Nat} (hk : d.resolved + k ≤ d.frames) : (d.resolvePlay o k).Ok := by
  have size := h.sized (Descriptor.live_of_eligible he)
  obtain ⟨hu, hr, -, hout, hend⟩ := h.live (Descriptor.live_of_eligible he)
  obtain ⟨cr, cu, cs, cl⟩ := d.counts.addPlay_spec o k
  have hgone := h.play (Descriptor.live_of_eligible he) hd
  have notLoading : d.state ≠ .loading := by
    rcases Descriptor.eligible_iff.mp he with e | e <;> simp [e]
  refine Descriptor.Ok.of_eligible he ⟨size.frames, size.bytes, size.range, size.pages⟩
    ⟨fun _ => ?_, fun e => absurd (hd.symm.trans e) (by decide)⟩ ⟨?_, ?_, hk, hout, hend⟩ (h.eligible he)
    (fun _ => h.loaded (Descriptor.live_of_eligible he) notLoading hd) (fun _ => ?_)
    (fun e => absurd (hd.symm.trans e) (by decide))
  · exact ⟨cs.trans (h.side.1 hd).1, cl.trans (h.side.1 hd).2⟩
  · exact cu.trans hu
  · exact cr.trans (by rw [hr]; rfl)
  · exact Nat.max_eq_right (hgone ▸ size.doneEntries_mono (Nat.le_add_right _ _))

/-- A record that becomes ACTIVE keeps the rest of Table 2-1 (R37, R40). -/
theorem Descriptor.Ok.activated {d : Descriptor} (h : d.Ok) (he : d.eligible = true) : ({ d with state := .active } : Descriptor).Ok := by
  have size := h.sized (Descriptor.live_of_eligible he)
  have live := Descriptor.live_of_eligible he
  have notLoading : d.state ≠ .loading := by
    rcases Descriptor.eligible_iff.mp he with e | e <;> simp [e]
  exact Descriptor.Ok.of_eligible rfl ⟨size.frames, size.bytes, size.range, size.pages⟩ h.side (h.live live) (h.eligible he)
    (h.loaded live notLoading) (h.play live) (h.capture live)

/-- A READY record that becomes WAITING with a span start (R33, R34). -/
theorem Descriptor.Ok.waiting {d : Descriptor} (h : d.Ok) (hr : d.state = .ready) (S : FrameNo) :
    ({ d with state := .waiting, span := some S } : Descriptor).Ok := by
  have live : d.state.live = true := by rw [hr]; rfl
  have size := h.sized live
  exact Descriptor.Ok.of_eligible rfl ⟨size.frames, size.bytes, size.range, size.pages⟩ h.side (h.live live) rfl
    (h.loaded live (by simp [hr])) (h.play live) (h.capture live)

/-- More positions of an eligible capture record are assigned, passed over or late (R32, R36, R40, R41). -/
theorem Descriptor.Ok.assign {d : Descriptor} (h : d.Ok) (he : d.eligible = true) {n : Nat} (h1 : d.assigned ≤ n)
    (h2 : n ≤ d.frames) : ({ d with assigned := n } : Descriptor).Ok := by
  have live := Descriptor.live_of_eligible he
  have size := h.sized live
  have notLoading : d.state ≠ .loading := by
    rcases Descriptor.eligible_iff.mp he with e | e <;> simp [e]
  refine Descriptor.Ok.of_eligible he ⟨size.frames, size.bytes, size.range, size.pages⟩ h.side (h.live live) (h.eligible he)
    (h.loaded live notLoading) (h.play live) fun hd => ?_
  obtain ⟨hra, -, hgw⟩ := h.capture live hd
  exact ⟨Nat.le_trans hra h1, h2, hgw⟩

/-- A capture record that becomes eligible with every position late (R36). -/
theorem Descriptor.Ok.allLate {d : Descriptor} (h : d.Ok) (hr : d.state = .ready) (hd : d.direction = .capture) (S : FrameNo) :
    ({ d with
      state := .waiting, span := some S, assigned := d.frames, resolved := d.frames,
      counts := { d.counts with late := d.frames } } : Descriptor).Ok := by
  have live : d.state.live = true := by rw [hr]; rfl
  have size := h.sized live
  obtain ⟨hu, hres, -, hout, hend⟩ := h.live live
  obtain ⟨hr0, -, -, hw0, hg0⟩ := h.fresh (.inr hr)
  refine Descriptor.Ok.of_eligible rfl ⟨size.frames, size.bytes, size.range, size.pages⟩
    ⟨fun e => absurd (hd.symm.trans e) (by decide), fun _ => h.side.2 hd⟩ ⟨hu, ?_, Nat.le_refl _, hout, hend⟩ rfl
    (fun e => absurd (hd.symm.trans e) (by decide)) (fun e => absurd (hd.symm.trans e) (by decide))
    fun _ => ⟨Nat.le_refl _, Nat.le_refl _, ?_, .inr ⟨hw0, rfl, rfl⟩⟩
  · simp only [Counts.resolved, hr0] at hres ⊢
    omega
  · rw [hg0, hw0]

/-- One position of an eligible capture record is stored: `written` reaches its end, and a page that the run has come past
is handed on (R42, R60, R61). -/
def Descriptor.store (d : Descriptor) (k : EntryKind) : Descriptor :=
  { d with
    resolved := d.resolved + 1, written := (d.resolved + 1) * d.frameSize, counts := d.counts.addCapture k
    gone := (d.resolved + 1) * d.frameSize / 512 }

theorem Descriptor.Ok.store {d : Descriptor} (h : d.Ok) (he : d.eligible = true) (hd : d.direction = .capture)
    (k : EntryKind) (hr : d.resolved < d.assigned) : (d.store k).Ok := by
  have live := Descriptor.live_of_eligible he
  have size := h.sized live
  obtain ⟨hu, hres, -, hout, hend⟩ := h.live live
  obtain ⟨-, haf, -, -⟩ := h.capture live hd
  obtain ⟨cr, cu, c1, c2, c3⟩ := d.counts.addCapture_spec k
  obtain ⟨s1, s2, s3⟩ := h.side.2 hd
  refine Descriptor.Ok.of_eligible he ⟨size.frames, size.bytes, size.range, size.pages⟩
    ⟨fun e => absurd (hd.symm.trans e) (by decide), fun _ => ⟨c1.trans s1, c2.trans s2, c3.trans s3⟩⟩
    ⟨cu.trans hu, cr.trans (by rw [hres]; rfl), Nat.le_trans hr haf, hout, hend⟩ (h.eligible he)
    (fun e => absurd (hd.symm.trans e) (by decide)) (fun e => absurd (hd.symm.trans e) (by decide))
    fun _ => ⟨hr, haf, rfl, .inl rfl⟩

/-- More bytes of a LOADING record are in; with the last one it is READY (R31). -/
theorem Descriptor.Ok.load {d : Descriptor} (h : d.Ok) (hl : d.state = .loading) {n : Nat} (hn : d.loaded + n ≤ d.bytes) :
    (d.load n).Ok := by
  have live : d.state.live = true := by rw [hl]; rfl
  have size := h.size (by simp [hl])
  have hplay := (h.loading hl).1
  have state : (d.load n).state = .ready ∧ d.loaded + n = d.bytes ∨ (d.load n).state = .loading ∧ d.loaded + n < d.bytes := by
    simp only [Descriptor.load, hl]
    by_cases e : d.loaded + n = d.bytes
    · exact .inl ⟨if_pos e, e⟩
    · exact .inr ⟨if_neg e, by omega⟩
  have fresh := h.fresh (.inl hl)
  rcases state with ⟨hs, he⟩ | ⟨hs, he⟩
  · exact
      { blank := fun e => absurd (hs.symm.trans e) (by decide)
        size := fun _ => size
        side := h.side
        live := fun _ => h.live live
        retired := fun e => absurd (hs.symm.trans e) (by decide)
        fresh := fun _ => fresh
        loading := fun e => absurd (hs.symm.trans e) (by decide)
        loaded := fun _ _ _ => he
        eligible := fun e => by simp [Descriptor.eligible, hs] at e
        play := fun _ => h.play live
        capture := fun _ => h.capture live }
  · exact
      { blank := fun e => absurd (hs.symm.trans e) (by decide)
        size := fun _ => size
        side := h.side
        live := fun _ => h.live live
        retired := fun e => absurd (hs.symm.trans e) (by decide)
        fresh := fun _ => fresh
        loading := fun _ => ⟨hplay, he⟩
        loaded := fun _ e => absurd hs e
        eligible := fun e => by simp [Descriptor.eligible, hs] at e
        play := fun _ => h.play live
        capture := fun _ => h.capture live }

/-! ### Retirement of a record -/

theorem Descriptor.Ok.gone_le {d : Descriptor} (h : d.Ok) (hl : d.state.live = true) : d.gone ≤ d.pages.length := by
  have size := h.sized hl
  cases hd : d.direction with
  | play => exact h.play hl hd ▸ size.doneEntries_le _
  | capture =>
    obtain ⟨-, -, hg, hw⟩ := h.capture hl hd
    rcases hw with hw | ⟨hw, -⟩
    · rw [hg, hw]
      exact size.entry_le (h.live hl).2.2.1
    · simp [hg, hw]

/-- What Table 2-3 asks of a record before it retires with the outcome given. -/
def Descriptor.CanEnd (d : Descriptor) (o : DoneOutcome) : Prop :=
  match o with
  | .complete => d.resolved = d.frames ∧ d.counts.late < d.frames ∧ d.span.isSome = true
  | .late => d.resolved = d.frames ∧ d.counts.late = d.frames ∧ d.span.isSome = true
  | .cut => d.span.isSome = true
  | .discarded => d.resolved = 0

/-- A record that retires with an outcome that fits it keeps to Table 2-1, its counts adding up (R44, R46, Table 2-3). -/
theorem Descriptor.Ok.retire {d : Descriptor} (h : d.Ok) (hl : d.state.live = true) (o : DoneOutcome)
    (ho : d.CanEnd o) : (d.retire o).emptied.Ok := by
  have size := h.size (DescState.ne_free_of_live hl)
  have frames := size.1
  obtain ⟨-, hres, hle, -, -⟩ := h.live hl
  have gone : max d.gone d.pages.length = d.pages.length := Nat.max_eq_right (h.gone_le hl)
  have account : (d.retire o).emptied.Account := by
    cases o with
    | complete =>
      obtain ⟨hr, hlate, hspan⟩ := ho
      refine ⟨?_, hlate, ?_, ?_⟩
      · simp [Descriptor.emptied, Descriptor.retire, hr]
      · simpa [Descriptor.emptied, Descriptor.retire] using hspan
      · simp [Descriptor.emptied, Descriptor.retire, hr, show d.frames ≠ 0 by omega]
    | late =>
      obtain ⟨hr, hlate, hspan⟩ := ho
      refine ⟨hlate, ?_, ?_⟩
      · simpa [Descriptor.emptied, Descriptor.retire] using hspan
      · simp [Descriptor.emptied, Descriptor.retire, hr, show d.frames ≠ 0 by omega]
    | cut =>
      have hspan : d.span.isSome = true := ho
      refine ⟨?_, ?_⟩
      · simpa [Descriptor.emptied, Descriptor.retire] using hspan
      · simp [Descriptor.emptied, Descriptor.retire]
    | discarded =>
      refine ⟨?_, ?_, ?_⟩ <;> simp [Descriptor.emptied, Descriptor.retire, show d.resolved = 0 from ho]
  exact
    { blank := fun e => by cases e
      size := fun _ => size
      side := h.side
      live := fun e => by cases e
      retired := fun _ => ⟨by
        change d.counts.resolved + (d.frames - d.resolved) = d.frames
        omega, rfl, gone, account⟩
      fresh := fun e => by rcases e with e | e <;> cases e
      loading := fun e => by cases e
      loaded := fun e => by cases e
      eligible := fun e => by cases e
      play := fun e => by cases e
      capture := fun e => by cases e }

/-- With every position resolved (R45). -/
theorem Descriptor.Ok.retireResolved {d : Descriptor} (h : d.Ok) (hs : d.spent = true) :
    (d.retire d.resolvedOutcome).emptied.Ok := by
  obtain ⟨he, hr⟩ : d.eligible = true ∧ d.frames ≤ d.resolved := by simpa [Descriptor.spent] using hs
  have live := Descriptor.live_of_eligible he
  obtain ⟨-, hres, hle, -, -⟩ := h.live live
  have all : d.resolved = d.frames := Nat.le_antisymm hle hr
  refine h.retire live _ ?_
  by_cases hlate : d.counts.late = d.frames
  · rw [Descriptor.resolvedOutcome, if_pos hlate]
    exact ⟨all, hlate, h.eligible he⟩
  · rw [Descriptor.resolvedOutcome, if_neg hlate]
    refine ⟨all, ?_, h.eligible he⟩
    simp only [Counts.resolved] at hres
    omega

/-- By ABORT (R13, R45). -/
theorem Descriptor.Ok.retireAbort {d : Descriptor} (h : d.Ok) (hl : d.state.live = true) :
    (d.retire d.abortOutcome).emptied.Ok := by
  refine h.retire hl _ ?_
  by_cases hc : d.state = .active ∨ d.state = .waiting ∧ 0 < d.resolved
  · rw [Descriptor.abortOutcome, if_pos hc]
    exact h.eligible (Descriptor.eligible_iff.mpr (hc.elim .inr fun hw => .inl hw.1))
  · rw [Descriptor.abortOutcome, if_neg hc]
    obtain ⟨hactive, hwaiting⟩ := not_or.mp hc
    change d.resolved = 0
    cases hst : d.state with
    | free => rw [hst] at hl; cases hl
    | retired => rw [hst] at hl; cases hl
    | loading => exact (h.fresh (.inl hst)).1
    | ready => exact (h.fresh (.inr hst)).1
    | waiting => exact Nat.eq_zero_of_not_pos fun hp => hwaiting ⟨hst, hp⟩
    | active => exact absurd hst hactive

theorem Descriptor.fresh_of_not_eligible {d : Descriptor} (hl : d.state.live = true) (he : d.eligible = false) :
    d.state = .loading ∨ d.state = .ready := by
  cases hst : d.state <;> simp_all [DescState.live, Descriptor.eligible]

/-- By CLOSE (R15, R49): nothing of it was resolved. -/
theorem Descriptor.Ok.retireDiscarded {d : Descriptor} (h : d.Ok) (hl : d.state.live = true) (he : d.eligible = false) :
    (d.retire .discarded).emptied.Ok :=
  h.retire hl .discarded (h.fresh (Descriptor.fresh_of_not_eligible hl he)).1

end Sys2Proof.Machine

/-! ## The pools: descriptors, pages and accounts of the whole part -/

namespace Sys2Proof.Machine

/-! ### Claims that account for a descriptor -/

/-- DONE and DATA claims: those that stand for a descriptor or a page of one (R43, R145). -/
def Claim.accounts : Claim → Bool
  | .done _ => true
  | .data _ => true
  | .streamEvent _ => false
  | .streamDetached _ _ _ => false
  | .domainEvent _ => false
  | .overrideEvent => false
  | .marker _ => false

/-- The pages that DATA claims hold (R53). -/
def State.claimPages (s : State) : List PageNo := s.claims.filterMap Claim.page

theorem claimPages_filter (cs : List Claim) : (cs.filter Claim.accounts).filterMap Claim.page = cs.filterMap Claim.page := by
  rw [List.filterMap_filter]
  congr 1
  funext c
  cases c <;> rfl

theorem count_done_filter (cs : List Claim) (h : Handle) :
    (cs.filter Claim.accounts).count (.done h) = cs.count (.done h) :=
  List.count_filter (p := Claim.accounts) rfl

/-- No DATA claim behind a DONE claim of the same descriptor. -/
def Claim.Behind (a b : Claim) : Prop := ∀ h x, a = .done h → b = .data x → x.handle ≠ h

theorem dataBeforeDone_iff (cs : List Claim) : dataBeforeDone cs = true ↔ cs.Pairwise Claim.Behind := by
  have other : ∀ c : Claim, (∀ h, c ≠ .done h) → ∀ rest : List Claim, ∀ b ∈ rest, Claim.Behind c b :=
    fun c hc _ b _ h x e => absurd e (hc h)
  induction cs with
  | nil => simp [dataBeforeDone]
  | cons c cs ih =>
    rw [List.pairwise_cons]
    cases c with
    | done h =>
      simp only [dataBeforeDone, Bool.and_eq_true, ih, List.all_eq_true]
      refine and_congr_left fun _ => forall₂_congr fun b _ => ?_
      cases b <;> simp [Claim.Behind]
    | data x => simpa [dataBeforeDone, ih] using fun _ => other (.data x) (by simp) cs
    | streamEvent i => simpa [dataBeforeDone, ih] using fun _ => other (.streamEvent i) (by simp) cs
    | streamDetached i g r => simpa [dataBeforeDone, ih] using fun _ => other (.streamDetached i g r) (by simp) cs
    | domainEvent d => simpa [dataBeforeDone, ih] using fun _ => other (.domainEvent d) (by simp) cs
    | overrideEvent => simpa [dataBeforeDone, ih] using fun _ => other .overrideEvent (by simp) cs
    | marker l => simpa [dataBeforeDone, ih] using fun _ => other (.marker l) (by simp) cs

theorem behind_filter (cs : List Claim) :
    (cs.filter Claim.accounts).Pairwise Claim.Behind ↔ cs.Pairwise Claim.Behind := by
  rw [List.pairwise_filter]
  refine ⟨fun hp => hp.imp fun {a b} hab h x ea eb => ?_, fun hp => hp.imp fun hab _ _ => hab⟩
  exact hab (by rw [ea]; rfl) (by rw [eb]; rfl) h x ea eb

/-! ### The four holdings of pages -/

/-- The pages that descriptors hold (R53). -/
def State.descPages (s : State) : List PageNo := (List.finRange 48).flatMap fun h => (s.desc h).heldPages

theorem holdings_count (s : State) (p : PageNo) : s.holdings.count p =
    s.freeList.count p + s.descPages.count p + s.claimPages.count p + s.entryPages.count p := by
  simp only [State.holdings, List.count_append]
  rfl

/-- Apart from one descriptor the pages that descriptors hold stay. -/
theorem descPages_count {s t : State} {h : Handle} (hd : ∀ x, x ≠ h → t.desc x = s.desc x) (p : PageNo) :
    t.descPages.count p + (s.desc h).heldPages.count p = s.descPages.count p + (t.desc h).heldPages.count p := by
  have split : ∀ u : State, u.descPages.count p =
      (u.desc h).heldPages.count p + (((List.finRange 48).erase h).flatMap fun x => (u.desc x).heldPages).count p := fun u => by
    have perm := (List.perm_cons_erase (List.mem_finRange h)).flatMap_right fun x => (u.desc x).heldPages
    rw [State.descPages, perm.count_eq, List.flatMap_cons, List.count_append]
  have rest : (((List.finRange 48).erase h).flatMap fun x => (t.desc x).heldPages) =
      ((List.finRange 48).erase h).flatMap fun x => (s.desc x).heldPages :=
    List.flatMap_congr fun x hx => by rw [hd x ((List.nodup_finRange 48).mem_erase_iff.mp hx).1]
  rw [split t, split s, rest]
  omega

/-- What one descriptor gives up another holding takes (R53). -/
theorem State.PagesOk.change {s t : State} {h : Handle} (hs : s.PagesOk) (hd : ∀ x, x ≠ h → t.desc x = s.desc x)
    (hp : ∀ p, (t.desc h).heldPages.count p + t.freeList.count p + t.claimPages.count p + t.entryPages.count p =
      (s.desc h).heldPages.count p + s.freeList.count p + s.claimPages.count p + s.entryPages.count p) : t.PagesOk := by
  have same : t.holdings.Perm s.holdings := List.perm_iff_count.mpr fun p => by
    rw [holdings_count, holdings_count]
    have := descPages_count hd p
    have := hp p
    omega
  exact same.trans hs

/-! ### What holds of all descriptors at once -/

/-- The part of the invariant that speaks of no one stream: every descriptor in one place (R26), its record (R46), every page
in one holding (R53), data ahead of accounts (R145), and the kind of the move in flight (R68). -/
structure State.CoreOk (s : State) : Prop where
  places : s.PlacesOk
  descs : s.DescsOk
  pages : s.PagesOk
  data : s.DataOk
  kinds : ∀ m ∈ s.inFlight, m.kind.isSome = true ↔ m.direction = .capture

/-- From `s` to `t` nothing changes of what `CoreOk` reads, but pages may pass between the free list and the outbound
entries, and a move may lose its void or mute marks or end. -/
structure CoreFrame (s t : State) : Prop where
  descs : ∀ h, t.desc h = s.desc h
  queues : ∀ i, (t.stream i).queue = (s.stream i).queue
  claims : t.claims.filter Claim.accounts = s.claims.filter Claim.accounts
  pages : ∀ p, t.freeList.count p + t.entryPages.count p = s.freeList.count p + s.entryPages.count p
  kinds : ∀ m ∈ t.inFlight, ∃ m' ∈ s.inFlight, m.kind = m'.kind ∧ m.direction = m'.direction

theorem CoreFrame.refl (s : State) : CoreFrame s s :=
  ⟨fun _ => rfl, fun _ => rfl, rfl, fun _ => rfl, fun m hm => ⟨m, hm, rfl, rfl⟩⟩

theorem CoreFrame.trans {s t u : State} (a : CoreFrame s t) (b : CoreFrame t u) : CoreFrame s u where
  descs h := (b.descs h).trans (a.descs h)
  queues i := (b.queues i).trans (a.queues i)
  claims := b.claims.trans a.claims
  pages p := (b.pages p).trans (a.pages p)
  kinds m hm := by
    obtain ⟨m', hm', hk, hd⟩ := b.kinds m hm
    obtain ⟨m'', hm'', hk', hd'⟩ := a.kinds m' hm'
    exact ⟨m'', hm'', hk.trans hk', hd.trans hd'⟩

theorem done_mem_iff_count (cs : List Claim) (h : Handle) : Claim.done h ∈ cs ↔ 0 < cs.count (.done h) :=
  List.count_pos_iff.symm

theorem State.PlacesOk.of_counts {s t : State} (hs : s.PlacesOk) (hd : ∀ h, t.desc h = s.desc h)
    (hq : ∀ i, (t.stream i).queue = (s.stream i).queue) (hc : ∀ h, t.claims.count (.done h) = s.claims.count (.done h)) :
    t.PlacesOk where
  queued h i := by rw [hq, hd]; exact hs.queued h i
  once i := by rw [hq]; exact hs.once i
  retired h := by rw [done_mem_iff_count, hc, ← done_mem_iff_count, hd]; exact hs.retired h
  doneOnce h := by rw [hc]; exact hs.doneOnce h

theorem CoreFrame.count_done {s t : State} (a : CoreFrame s t) (h : Handle) :
    t.claims.count (.done h) = s.claims.count (.done h) := by
  rw [← count_done_filter, a.claims, count_done_filter]

theorem CoreFrame.mem_data {s t : State} (a : CoreFrame s t) (x : DataClaim) :
    Claim.data x ∈ t.claims ↔ Claim.data x ∈ s.claims := by
  have h : ∀ cs : List Claim, Claim.data x ∈ cs ↔ Claim.data x ∈ cs.filter Claim.accounts := fun cs => by
    rw [List.mem_filter]
    exact ⟨fun e => ⟨e, rfl⟩, fun e => e.1⟩
  rw [h, a.claims, ← h]

theorem CoreFrame.keeps {s t : State} (a : CoreFrame s t) (hs : s.CoreOk) : t.CoreOk where
  places := hs.places.of_counts a.descs a.queues a.count_done
  descs h := by rw [a.descs]; exact hs.descs h
  pages := State.PagesOk.change (h := 0) hs.pages (fun x _ => a.descs x) fun p => by
    have claims : t.claimPages = s.claimPages := by
      rw [State.claimPages, ← claimPages_filter, a.claims, claimPages_filter]
      rfl
    have := a.pages p
    rw [a.descs, claims]
    omega
  data :=
    { order := by
        have := hs.data.order
        rw [dataBeforeDone_iff, ← behind_filter] at this ⊢
        rw [a.claims]
        exact this
      count := fun x hx => hs.data.count x ((a.mem_data x).mp hx) }
  kinds m hm := by
    obtain ⟨m', hm', hk, hd⟩ := a.kinds m hm
    rw [hk, hd]
    exact hs.kinds m' hm'

/-! ### One descriptor moves on -/

/-- A DATA claim of descriptor `h` of 1 to 512 bytes (R141). -/
def Claim.DataOf (h : Handle) (c : Claim) : Prop := ∃ x, c = .data x ∧ x.handle = h ∧ 1 ≤ x.count ∧ x.count ≤ 512

theorem count_done_dataOf {h : Handle} {cs : List Claim} (hc : ∀ c ∈ cs, c.DataOf h) (x : Handle) :
    cs.count (.done x) = 0 :=
  List.count_eq_zero.mpr fun hm => by
    obtain ⟨y, e, -⟩ := hc _ hm
    cases e

/-- Data claims of a descriptor that has no DONE claim yet join the tail (R145). -/
theorem State.DataOk.raise {cs ds : List Claim} {h : Handle} (ho : dataBeforeDone cs = true)
    (hcnt : ∀ x, Claim.data x ∈ cs → 1 ≤ x.count ∧ x.count ≤ 512) (hn : Claim.done h ∉ cs) (hds : ∀ c ∈ ds, c.DataOf h) :
    dataBeforeDone (cs ++ ds) = true ∧ ∀ x, Claim.data x ∈ cs ++ ds → 1 ≤ x.count ∧ x.count ≤ 512 := by
  constructor
  · rw [dataBeforeDone_iff, List.pairwise_append]
    refine ⟨(dataBeforeDone_iff cs).mp ho, ?_, fun a ha b hb x y ea eb hxy => ?_⟩
    · refine (List.pairwise_of_forall (R := fun _ _ => True) fun _ _ => trivial).imp_of_mem fun {a b} ha _ _ x y ea _ => ?_
      obtain ⟨z, e, -⟩ := hds a ha
      rw [e] at ea
      cases ea
    · obtain ⟨z, e, hz, -⟩ := hds b hb
      rw [e] at eb
      cases eb
      rw [hxy] at hz
      rw [ea, hz] at ha
      exact hn ha
  · intro x hx
    rcases List.mem_append.mp hx with hx | hx
    · exact hcnt x hx
    · obtain ⟨z, e, -, h1, h2⟩ := hds _ hx
      cases e
      exact ⟨h1, h2⟩

theorem State.PlacesOk.not_done {s : State} (hs : s.PlacesOk) {h : Handle} (hl : (s.desc h).state.live = true) :
    Claim.done h ∉ s.claims := fun e => by
  rw [(hs.retired h).mp e] at hl
  cases hl

/-- A queued descriptor moves on in its queue: pages that it gives up join the free list or pass to DATA claims. -/
theorem State.CoreOk.handOver {s t : State} {h : Handle} {ps : List PageNo} {cs : List Claim} (hs : s.CoreOk)
    (hlive : (s.desc h).state.live = true) (hlive' : (t.desc h).state.live = true)
    (hstream : (t.desc h).stream = (s.desc h).stream) (hok : (t.desc h).Ok) (hd : ∀ x, x ≠ h → t.desc x = s.desc x)
    (hq : ∀ i, (t.stream i).queue = (s.stream i).queue) (hf : t.freeList = s.freeList ++ ps)
    (hc : t.claims = s.claims ++ cs) (he : t.port.outbound = s.port.outbound) (hm : ∀ m ∈ t.inFlight, ∃ m' ∈ s.inFlight, m.kind = m'.kind ∧ m.direction = m'.direction)
    (hp : (s.desc h).heldPages = ps ++ cs.filterMap Claim.page ++ (t.desc h).heldPages) (hcs : ∀ c ∈ cs, c.DataOf h) :
    t.CoreOk := by
  have state : ∀ x, (t.desc x).state.live = (s.desc x).state.live ∧ (t.desc x).stream = (s.desc x).stream ∧
      ((t.desc x).state = .retired ↔ (s.desc x).state = .retired) := fun x => by
    by_cases e : x = h
    · subst e
      refine ⟨hlive'.trans hlive.symm, hstream, ?_⟩
      constructor
      · intro e; rw [e] at hlive'; cases hlive'
      · intro e; rw [e] at hlive; cases hlive
    · rw [hd x e]; exact ⟨rfl, rfl, Iff.rfl⟩
  have counts : ∀ x, t.claims.count (.done x) = s.claims.count (.done x) := fun x => by
    rw [hc, List.count_append, count_done_dataOf hcs, Nat.add_zero]
  refine ⟨⟨fun x i => ?_, fun i => ?_, fun x => ?_, fun x => ?_⟩, fun x => ?_, ?_, ?_, fun m hmem => ?_⟩
  · rw [hq, (state x).1, (state x).2.1]; exact hs.places.queued x i
  · rw [hq]; exact hs.places.once i
  · rw [done_mem_iff_count, counts, ← done_mem_iff_count, (state x).2.2]; exact hs.places.retired x
  · rw [counts]; exact hs.places.doneOnce x
  · by_cases e : x = h
    · rw [e]; exact hok
    · rw [hd x e]; exact hs.descs x
  · refine State.PagesOk.change hs.pages hd fun p => ?_
    have entries : t.entryPages = s.entryPages := by rw [State.entryPages, he]; rfl
    have claims : t.claimPages = s.claimPages ++ cs.filterMap Claim.page := by
      rw [State.claimPages, hc, List.filterMap_append]; rfl
    rw [hp, hf, entries, claims]
    simp only [List.count_append]
    omega
  · obtain ⟨ho, hcnt⟩ := State.DataOk.raise hs.data.order hs.data.count (hs.places.not_done hlive) hcs
    exact ⟨by rw [hc]; exact ho, by rw [hc]; exact hcnt⟩
  · obtain ⟨m', hm', hk, hdir⟩ := hm m hmem
    rw [hk, hdir]
    exact hs.kinds m' hm'

/-! ### A descriptor retires -/

theorem partClaim_dataOf (d : Descriptor) (h : Handle) : ∀ c ∈ d.partClaim h, c.DataOf h := by
  intro c hc
  unfold Descriptor.partClaim at hc
  split at hc
  · cases hc
  · split at hc
    · cases hc
    · next hpart =>
      obtain ⟨p, -, rfl⟩ := List.mem_map.mp hc
      refine ⟨_, rfl, rfl, Nat.pos_of_ne_zero hpart, ?_⟩
      exact Nat.le_of_lt (Nat.mod_lt _ (by decide))

/-- What a record holds when it retires goes to the free list, or to a DATA claim (R58, R61). -/
theorem heldPages_retired (d : Descriptor) (h : Handle) (p : PageNo) :
    d.heldPages.count p = d.leftPages.count p + ((d.partClaim h).filterMap Claim.page).count p := by
  unfold Descriptor.leftPages Descriptor.partClaim
  split
  · simp
  · split
    · simp
    · cases d.heldPages with
      | nil => simp
      | cons q qs =>
        simp only [List.head?_cons, Option.toList_some, List.map_cons, List.map_nil, List.tail_cons, List.filterMap_cons,
          List.filterMap_nil, Descriptor.dataClaim, Claim.page]
        rw [← List.singleton_append, List.count_append, Nat.add_comm]

theorem heldPages_emptied (d : Descriptor) : d.emptied.heldPages = [] :=
  List.drop_eq_nil_of_le (Nat.le_max_right _ _)

/-- Retirement (R44 steps 1 to 4) keeps everything but what the stream itself says of its queue. -/
theorem State.CoreOk.retire {s : State} {i : StreamNo} {h : Handle} {o : DoneOutcome} (hs : s.CoreOk)
    (hq : h ∈ (s.stream i).queue) (hok : ((s.desc h).retire o).emptied.Ok) : (s.retire i h o).CoreOk := by
  obtain ⟨hlive, hstream⟩ := (hs.places.queued h i).mp hq
  have hn := hs.places.not_done hlive
  have part := partClaim_dataOf (s.desc h) h
  have desc := retire_desc s i h (o := o)
  have other : ∀ x, x ≠ h → (s.retire i h o).desc x = s.desc x := fun x e => by rw [desc, if_neg e]
  have self : (s.retire i h o).desc h = ((s.desc h).retire o).emptied := by rw [desc, if_pos rfl]
  have outbound : (s.retire i h o).port.outbound = s.port.outbound := by rw [retire_eq]; rfl
  have flight : (s.retire i h o).inFlight = s.inFlight := by rw [retire_eq]; rfl
  have claims := retire_claims s i h o
  have counts : ∀ x, (s.retire i h o).claims.count (.done x) = s.claims.count (.done x) + if x = h then 1 else 0 := fun x => by
    rw [claims, List.count_append, List.count_append, count_done_dataOf part, Nat.zero_add, List.count_singleton]
    simp only [beq_iff_eq, Claim.done.injEq, eq_comm (a := h)]
  refine ⟨⟨fun x j => ?_, fun j => ?_, fun x => ?_, fun x => ?_⟩, fun x => ?_, ?_, ?_, ?_⟩
  · rw [retire_stream]
    by_cases e : x = h
    · subst e
      have shut : ((s.retire i x o).desc x).state.live = false := by rw [self]; rfl
      rw [shut]
      simp only [Bool.false_eq_true, false_and, iff_false]
      by_cases ej : j = i
      · subst ej; rw [if_pos rfl]; exact fun hm => (hs.places.once j).not_mem_erase hm
      · rw [if_neg ej]
        exact fun hm => ej ((hs.places.queued x j).mp hm |>.2.symm.trans hstream)
    · rw [other x e, ← hs.places.queued x j]
      by_cases ej : j = i
      · subst ej; rw [if_pos rfl]; exact List.mem_erase_of_ne e
      · rw [if_neg ej]
  · rw [retire_stream]
    by_cases ej : j = i
    · subst ej; rw [if_pos rfl]; exact (hs.places.once j).erase h
    · rw [if_neg ej]; exact hs.places.once j
  · rw [done_mem_iff_count, counts]
    by_cases e : x = h
    · subst e
      rw [self, if_pos rfl]
      exact ⟨fun _ => rfl, fun _ => Nat.succ_pos _⟩
    · rw [other x e, if_neg e, Nat.add_zero, ← done_mem_iff_count]; exact hs.places.retired x
  · rw [counts]
    by_cases e : x = h
    · subst e
      rw [if_pos rfl, List.count_eq_zero.mpr hn]
    · rw [if_neg e]; exact hs.places.doneOnce x
  · by_cases e : x = h
    · rw [e, self]; exact hok
    · rw [other x e]; exact hs.descs x
  · refine State.PagesOk.change hs.pages other fun p => ?_
    have entries : (s.retire i h o).entryPages = s.entryPages := by rw [State.entryPages, outbound]; rfl
    have pages : (s.retire i h o).claimPages = s.claimPages ++ ((s.desc h).partClaim h).filterMap Claim.page := by
      rw [State.claimPages, claims, List.filterMap_append, List.filterMap_append]
      simp [State.claimPages, Claim.page]
    rw [self, heldPages_emptied, retire_freeList, entries, pages, heldPages_retired (s.desc h) h p]
    simp only [List.count_append, List.count_nil]
    omega
  · obtain ⟨ho, hcnt⟩ := State.DataOk.raise hs.data.order hs.data.count hn part
    rw [← List.append_assoc] at claims
    refine ⟨?_, fun x hx => hcnt x ?_⟩
    · rw [claims, dataBeforeDone_iff, List.pairwise_append]
      refine ⟨(dataBeforeDone_iff _).mp ho, List.pairwise_singleton _ _, fun a _ b hb x y _ eb => ?_⟩
      rw [List.mem_singleton.mp hb] at eb
      cases eb
    · rw [claims] at hx
      simpa using hx
  · rw [flight]; exact hs.kinds

end Sys2Proof.Machine

/-! ## The pools: one stream with its queue, its ring or backlog, and its move -/

namespace Sys2Proof.Machine

/-! ### The queue -/

/-- `d` may stand just ahead of `d'` in a queue, whether or not the queue has come to rest (R30, R32). -/
structure Descriptor.Ahead (dir : Direction) (d d' : Descriptor) : Prop where
  stage : d.stage ≤ d'.stage
  loaded : d.stage ≠ 2
  eligible : d'.eligible = true → dir = .capture ∧ d.fullyAssigned = true

/-- The queue of stream `i` keeps to chapter 2 apart from what R32 and R44 still have to do. -/
structure State.QueueLoose (s : State) (i : StreamNo) : Prop where
  depth : (s.stream i).queue.length ≤ (s.stream i).depth
  own : ∀ h ∈ (s.stream i).queue, (s.desc h).generation = (s.stream i).generation ∧
    (s.desc h).direction = (s.stream i).direction ∧ (s.desc h).frameSize = (s.stream i).frameSize
  order : ((s.stream i).queue.map s.desc).IsChain (Descriptor.Ahead (s.stream i).direction)
  resting : (s.stream i).moving = false → ∀ h ∈ (s.stream i).queue, (s.desc h).eligible = false
  stopping : (s.stream i).state = .stopping → (s.stream i).queue ≠ []
  closed : (s.stream i).state = .closed → (s.stream i).queue = []

/-- Nothing is left to retire or to make eligible (R32, R44). -/
def State.Rests (s : State) (i : StreamNo) : Prop :=
  (∀ h ∈ (s.stream i).queue.head?, (s.desc h).spent = false) ∧ s.nextEligible i = none

theorem Descriptor.eligible_of_stage {d : Descriptor} (h : d.state.live = true) (hr : d.state ≠ .ready)
    (hl : d.state ≠ .loading) : d.eligible = true := by
  cases hs : d.state <;> simp_all [DescState.live, Descriptor.eligible]

theorem Descriptor.eligible_of_fullyAssigned {d : Descriptor} (h : d.fullyAssigned = true) : d.eligible = true := by
  rw [Descriptor.fullyAssigned, Bool.and_eq_true] at h
  exact h.1

theorem Descriptor.eligible_of_spent {d : Descriptor} (h : d.spent = true) : d.eligible = true := by
  rw [Descriptor.spent, Bool.and_eq_true] at h
  exact h.1

theorem Descriptor.stage_of_eligible {d : Descriptor} (h : d.eligible = true) : d.stage = 0 := by
  rcases Descriptor.eligible_iff.mp h with e | e <;> simp [Descriptor.stage, e]

theorem neighbours_iff {α : Type} {r : α → α → Bool} {l : List α} :
    neighbours r l = true ↔ l.IsChain fun a b => r a b = true := by
  induction l with
  | nil => simp [neighbours]
  | cons a l ih =>
    cases l with
    | nil => simp [neighbours]
    | cons b l => simp [neighbours, ih]

theorem isChain_and {α : Type} {R S : α → α → Prop} {l : List α} (hr : l.IsChain R) (hs : l.IsChain S) :
    l.IsChain fun a b => R a b ∧ S a b := by
  rw [List.isChain_iff_getElem] at hr hs ⊢
  exact fun k hk => ⟨hr k hk, hs k hk⟩

/-- Behind a descriptor that is not fully assigned nothing is eligible (R32). -/
theorem Ahead.none_eligible {dir : Direction} {d : Descriptor} {l : List Descriptor}
    (h : (d :: l).IsChain (Descriptor.Ahead dir)) (hd : d.fullyAssigned = false) : ∀ x ∈ l, x.eligible = false := by
  induction l generalizing d with
  | nil => simp
  | cons x l ih =>
    obtain ⟨hx, hl⟩ := List.isChain_cons_cons.mp h
    have notEligible : x.eligible = false := Bool.eq_false_iff.mpr fun e => by
      rw [(hx.eligible e).2] at hd; cases hd
    have notFull : x.fullyAssigned = false := Bool.eq_false_iff.mpr fun e => by
      rw [Descriptor.eligible_of_fullyAssigned e] at notEligible; cases notEligible
    exact List.forall_mem_cons.mpr ⟨notEligible, ih hl notFull⟩

/-- The neighbour relation of a queue at rest, taken apart. -/
theorem aheadOk_iff {s : State} {st : Stream} {h h' : Handle} : s.aheadOk st h h' = true ↔
    Descriptor.Ahead st.direction (s.desc h) (s.desc h') ∧
      (st.moving = true → st.direction = .capture → (s.desc h).fullyAssigned = true → (s.desc h').eligible = true) := by
  simp only [State.aheadOk, Bool.and_eq_true, Bool.or_eq_true, Bool.not_eq_true', decide_eq_true_eq]
  constructor
  · rintro ⟨⟨⟨h1, h2⟩, h3⟩, h4⟩
    refine ⟨⟨h1, h2, fun e => ?_⟩, fun hm hd hf => ?_⟩
    · rcases h3 with h3 | h3
      · rw [h3] at e; cases e
      · exact h3
    · rcases h4 with h4 | h4
      · simp [hm, hd, hf] at h4
      · exact h4
  · rintro ⟨⟨h1, h2, h3⟩, h4⟩
    refine ⟨⟨⟨h1, h2⟩, ?_⟩, ?_⟩
    · cases he : (s.desc h').eligible with
      | false => exact .inl rfl
      | true => exact .inr (h3 he)
    · cases he : (s.desc h').eligible with
      | true => exact .inr rfl
      | false =>
        left
        rw [Bool.eq_false_iff]
        intro e
        obtain ⟨⟨hm, hd⟩, hf⟩ : (st.moving = true ∧ st.direction = .capture) ∧ (s.desc h).fullyAssigned = true := by
          simpa using e
        rw [h4 hm hd hf] at he
        cases he

/-- With nothing more to make eligible, what stands behind a fully assigned capture descriptor is eligible (R32). -/
theorem readyCapture_none {s : State} {q : List Handle} {ahead : Option Handle}
    (hn : s.readyCapture ahead q = none) (hc : (q.map s.desc).IsChain (Descriptor.Ahead .capture))
    (hl : ∀ h ∈ q, (s.desc h).state.live = true ∧ (s.desc h).state ≠ .loading) :
    (q.map s.desc).IsChain fun d d' => d.fullyAssigned = true → d'.eligible = true := by
  induction q generalizing ahead with
  | nil => exact .nil
  | cons h q ih =>
    unfold State.readyCapture at hn
    split at hn
    · cases hn
    · next hready =>
      split at hn
      · next hfull =>
        refine (ih hn hc.tail fun x hx => hl x (List.mem_cons_of_mem _ hx)).cons fun d hd _ => ?_
        cases q with
        | nil => cases hd
        | cons x q =>
          obtain rfl : s.desc x = d := by simpa using hd
          have hx : (s.desc x).state ≠ .ready := fun e => by simp [State.readyCapture, e] at hn
          obtain ⟨live, notLoading⟩ := hl x (by simp)
          exact Descriptor.eligible_of_stage live hx notLoading
      · next hfull =>
        have behind := Ahead.none_eligible hc (Bool.eq_false_iff.mpr hfull)
        have notFull : ∀ d ∈ (h :: q).map s.desc, d.fullyAssigned = false := by
          refine List.forall_mem_cons.mpr ⟨Bool.eq_false_iff.mpr hfull, fun d hd => Bool.eq_false_iff.mpr fun e => ?_⟩
          exact absurd ((behind d hd).symm.trans (Descriptor.eligible_of_fullyAssigned e)) (by decide)
        refine hc.imp_of_mem_imp fun d d' hd _ _ e => ?_
        rw [notFull d hd] at e
        cases e

/-- Where every descriptor behind a fully assigned one is eligible and the head is not READY, R32 has nothing to do. -/
theorem readyCapture_of_eligible {s : State} {q : List Handle} (ahead : Option Handle)
    (hc : (q.map s.desc).IsChain fun d d' => d.fullyAssigned = true → d'.eligible = true)
    (hr : ∀ h ∈ q.head?, (s.desc h).state ≠ .ready) : s.readyCapture ahead q = none := by
  induction q generalizing ahead with
  | nil => rfl
  | cons h q ih =>
    unfold State.readyCapture
    rw [if_neg (hr h rfl)]
    split
    · next hfull =>
      refine ih (some h) hc.tail fun x hx => ?_
      have he : (s.desc x).eligible = true := hc.rel_head? (by simpa using ⟨x, hx, rfl⟩) hfull
      intro e
      rw [Descriptor.not_eligible_of_ready e] at he
      cases he
    · rfl

theorem not_spent_of_not_eligible {d : Descriptor} (h : d.eligible = false) : d.spent = false := by
  simp [Descriptor.spent, h]

/-- A queue keeps to chapter 2 exactly when it does so loosely and has come to rest. -/
theorem queueOk_iff {s : State} {i : StreamNo} (hs : s.CoreOk) : s.QueueOk i ↔ s.QueueLoose i ∧ s.Rests i := by
  have live : ∀ h ∈ (s.stream i).queue, (s.desc h).state.live = true := fun h hh => ((hs.places.queued h i).mp hh).1
  have chain : ∀ {R : Descriptor → Descriptor → Prop},
      ((s.stream i).queue.map s.desc).IsChain R ↔ (s.stream i).queue.IsChain fun a b => R (s.desc a) (s.desc b) :=
    List.isChain_map _
  constructor
  · intro hq
    have order := neighbours_iff.mp hq.order
    refine ⟨⟨hq.depth, hq.own, chain.mpr (order.imp fun h h' e => (aheadOk_iff.mp e).1), hq.resting, hq.stopping, hq.closed⟩,
      fun h hh => ?_, ?_⟩
    · cases hm : (s.stream i).moving with
      | true => exact (hq.moving hm h hh).2
      | false => exact not_spent_of_not_eligible (hq.resting hm h (List.mem_of_mem_head? hh))
    · unfold State.nextEligible
      split
      · next hm =>
        have notReady : ∀ h ∈ (s.stream i).queue.head?, (s.desc h).state ≠ .ready := fun h hh => (hq.moving hm h hh).1
        cases hd : (s.stream i).direction with
        | play =>
          cases hqueue : (s.stream i).queue with
          | nil => rfl
          | cons h q => simp [State.readyPlay, notReady h (by simp [hqueue])]
        | capture =>
          exact readyCapture_of_eligible none (chain.mpr (order.imp fun h h' e => (aheadOk_iff.mp e).2 hm hd)) notReady
      · rfl
  · rintro ⟨hl, hspent, hnext⟩
    refine ⟨hl.depth, hl.own, neighbours_iff.mpr ?_, hl.resting, fun hm h hh => ⟨fun hr => ?_, hspent h hh⟩, hl.stopping,
      hl.closed⟩
    · have loose := chain.mp hl.order
      by_cases hmc : (s.stream i).moving = true ∧ (s.stream i).direction = .capture
      · obtain ⟨hm, hd⟩ := hmc
        rw [State.nextEligible, if_pos hm, hd] at hnext
        have full := readyCapture_none hnext (hd ▸ hl.order) fun h hh => ⟨live h hh, fun e => by
          have := (hs.descs h).loading e |>.1
          rw [(hl.own h hh).2.1, hd] at this
          cases this⟩
        refine (isChain_and loose (chain.mp full)).imp fun h h' ⟨e, e'⟩ => aheadOk_iff.mpr ⟨e, fun _ _ => e'⟩
      · exact loose.imp fun h h' e => aheadOk_iff.mpr ⟨e, fun hm hd => absurd ⟨hm, hd⟩ hmc⟩
    · rw [State.nextEligible, if_pos hm] at hnext
      obtain ⟨q, hqueue⟩ : ∃ q, (s.stream i).queue = h :: q := by
        cases hqueue : (s.stream i).queue with
        | nil => simp [hqueue] at hh
        | cons x q => exact ⟨q, by simpa [hqueue] using hh⟩
      cases hd : (s.stream i).direction <;> rw [hd, hqueue] at hnext
      · simp [State.readyPlay, hr] at hnext
      · simp [State.readyCapture, hr] at hnext

/-! ### The move -/

/-- The move in flight of stream `i` that is not void, whatever its mute mark. -/
def State.liveMove (s : State) (i : StreamNo) : Option Move :=
  s.inFlight.bind fun m => if m.stream = i ∧ m.void = false then some { m with mute := false } else none

theorem mem_liveMove {s : State} {i : StreamNo} {m : Move} : m ∈ s.liveMove i ↔
    ∃ m' ∈ s.inFlight, m'.stream = i ∧ m'.void = false ∧ m = { m' with mute := false } := by
  unfold State.liveMove
  cases hm : s.inFlight with
  | none => simp
  | some x =>
    simp only [Option.bind_some, Option.mem_def, Option.some.injEq, exists_eq_left']
    split
    · next hc => simp only [Option.some.injEq, hc, true_and]; exact eq_comm
    · next hc =>
      simp only [reduceCtorEq, false_iff]
      exact fun ⟨hi, hv, _⟩ => hc ⟨hi, hv⟩

/-- The position that a move carries. -/
def Move.carries (m : Move) : Handle × Nat × FrameNo := (m.handle, m.position, m.frame)

/-- What a backlog entry stands for. -/
def BacklogEntry.place (e : BacklogEntry) : Handle × Nat × FrameNo := (e.handle, e.position, e.frame)

theorem carriedPosition_eq {s : State} {i : StreamNo} (h : ∀ m ∈ s.liveMove i, m.direction = .capture) :
    s.carriedPosition i = (s.liveMove i).toList.map Move.carries := by
  unfold State.carriedPosition
  split
  · next hm => simp [State.liveMove, hm]
  · next m hm =>
    have live : m.stream = i → m.void = false → m.direction = .capture := fun hi hv =>
      h { m with mute := false } (mem_liveMove.mpr ⟨m, hm, hi, hv, rfl⟩)
    by_cases hc : m.stream = i ∧ m.void = false
    · rw [if_pos ⟨hc.1, hc.2, live hc.1 hc.2⟩]
      rw [State.liveMove, hm, Option.bind_some, if_pos hc]
      rfl
    · rw [if_neg fun e => hc ⟨e.1, e.2.1⟩]
      rw [State.liveMove, hm, Option.bind_some, if_neg hc]
      rfl

/-! ### Ring and backlog -/

/-- The frame of the first unresolved position of a record that is eligible (R71). -/
def Descriptor.nextFrame (d : Descriptor) : Option FrameNo :=
  if d.eligible = true ∧ d.resolved < d.frames then d.span.map fun S => frameOf S d.resolved else none

theorem headFrame_eq (s : State) (i : StreamNo) : s.headFrame i =
    (s.stream i).queue.head?.bind fun h => (s.desc h).nextFrame.map fun f => (h, f) := by
  unfold State.headFrame
  cases (s.stream i).queue with
  | nil => rfl
  | cons h q =>
    dsimp only [List.head?_cons, Option.bind_some, Descriptor.nextFrame]
    split
    · rw [Option.map_map]; rfl
    · rfl

theorem nextFrame_some {d : Descriptor} {f : FrameNo} (h : d.nextFrame = some f) :
    d.eligible = true ∧ d.resolved < d.frames ∧ ∃ S, d.span = some S ∧ f = frameOf S d.resolved := by
  unfold Descriptor.nextFrame at h
  split at h
  · next hc =>
    obtain ⟨S, hS, rfl⟩ := Option.map_eq_some_iff.mp h
    exact ⟨hc.1, hc.2, S, hS, rfl⟩
  · cases h

theorem headFrame_some {s : State} {i : StreamNo} {h : Handle} {f : FrameNo} (e : s.headFrame i = some (h, f)) :
    (∃ q, (s.stream i).queue = h :: q) ∧ (s.desc h).nextFrame = some f := by
  rw [headFrame_eq] at e
  cases hq : (s.stream i).queue with
  | nil => simp [hq] at e
  | cons x q =>
    rw [hq] at e
    obtain ⟨g, hg, hx⟩ := Option.map_eq_some_iff.mp e
    cases hx
    exact ⟨⟨q, rfl⟩, hg⟩

/-- The assigned and unresolved positions of a record (R42). -/
def Descriptor.waitingAt (d : Descriptor) (h : Handle) : List (Handle × Nat × FrameNo) :=
  if d.eligible then
    (List.range (d.assigned - d.resolved)).map fun j => (h, d.resolved + j, frameOf (d.span.getD 0) (d.resolved + j))
  else []

theorem waitingPositions_eq (s : State) (h : Handle) : s.waitingPositions h = (s.desc h).waitingAt h := rfl

/-- The ring and the move of a play stream whose domain's counter stands at `n` (R70, R71, R72, R76). -/
structure State.PlayFlow (n : FrameNo) (s : State) (i : StreamNo) : Prop where
  silent : (s.stream i).backlog = []
  move : ∀ m ∈ s.liveMove i, m.generation = (s.stream i).generation ∧ m.direction = .play ∧
    s.headFrame i = some (m.handle, m.frame) ∧ m.position = (s.desc m.handle).resolved ∧ inWindow n m.frame = true
  four : (s.stream i).ring.length ≤ 4
  behind : ∀ h f, s.headFrame i = some (h, f) → inWindow n f = true → (s.stream i).ring.length ≤ (f - n).toNat
  closed : (s.stream i).state = .closed → (s.stream i).ring = []

/-- The backlog and the move of a capture stream (R42, R77, R78). -/
structure State.CaptureFlow (s : State) (i : StreamNo) : Prop where
  held : s.heldCount i ≤ 4
  ring : (s.stream i).ring = []
  move : ∀ m ∈ s.liveMove i, m.generation = (s.stream i).generation ∧ m.direction = .capture
  order : (s.liveMove i).toList.map Move.carries ++ (s.stream i).backlog.map BacklogEntry.place =
    (s.stream i).queue.flatMap fun h => (s.desc h).waitingAt h
  samples : ∀ e ∈ (s.stream i).backlog, ∀ xs, e.kind = .held xs → xs.length = (s.stream i).channels

/-- All that stream `i` keeps while its queue has not come to rest. -/
structure State.StreamLoose (n : FrameNo) (s : State) (i : StreamNo) : Prop where
  queue : s.QueueLoose i
  play : (s.stream i).direction = .play → s.PlayFlow n i
  capture : (s.stream i).direction = .capture → s.CaptureFlow i

/-- All that stream `i` keeps between two steps. -/
structure State.StreamOk (n : FrameNo) (s : State) (i : StreamNo) : Prop where
  loose : s.StreamLoose n i
  rests : s.Rests i

/-- The counter of the domain of stream `i`. -/
def State.clock (s : State) (i : StreamNo) : FrameNo := (s.domain (s.stream i).domain).counter

/-- A queue that has an eligible descriptor belongs to a stream that moves. -/
theorem State.QueueLoose.moving_of_eligible {s : State} {i : StreamNo} (hs : s.QueueLoose i) {h : Handle}
    (hq : h ∈ (s.stream i).queue) (he : (s.desc h).eligible = true) : (s.stream i).moving = true := by
  by_contra hm
  rw [hs.resting (by simpa using hm) h hq] at he
  cases he

theorem State.QueueLoose.moving_of_headFrame {s : State} {i : StreamNo} (hs : s.QueueLoose i) {h : Handle} {f : FrameNo}
    (e : s.headFrame i = some (h, f)) : (s.stream i).moving = true := by
  obtain ⟨⟨q, hq⟩, hf⟩ := headFrame_some e
  exact hs.moving_of_eligible (h := h) (by simp [hq]) (nextFrame_some hf).1

theorem State.QueueLoose.moving_of_waiting {s : State} {i : StreamNo} (hs : s.QueueLoose i)
    (e : ((s.stream i).queue.flatMap fun h => (s.desc h).waitingAt h) ≠ []) : (s.stream i).moving = true := by
  obtain ⟨h, hq, hw⟩ : ∃ h ∈ (s.stream i).queue, (s.desc h).waitingAt h ≠ [] := by simpa using e
  refine hs.moving_of_eligible hq ?_
  by_contra he
  exact hw (if_neg he)

theorem ringBehindHead_iff {s : State} {i : StreamNo} : s.ringBehindHead i = true ↔
    ∀ h f, s.headFrame i = some (h, f) → inWindow (s.clock i) f = true → (s.stream i).ring.length ≤ (f - s.clock i).toNat := by
  unfold State.ringBehindHead
  split
  · next e => simp [e]
  · next h f e =>
    simp only [e, Bool.or_eq_true, Bool.not_eq_true', decide_eq_true_eq, Option.some.injEq, Prod.mk.injEq, and_imp]
    constructor
    · rintro hw _ _ rfl rfl hin
      rcases hw with hw | hw
      · exact absurd (hw.symm.trans hin) (by decide)
      · exact hw
    · intro hw
      cases hin : inWindow (s.domain (s.stream i).domain).counter f with
      | false => exact .inl rfl
      | true => exact .inr (hw h f rfl rfl hin)

/-- The invariant taken apart: the ownership entries, what all descriptors keep, and what each stream keeps. -/
theorem poolsOk_iff {s : State} : s.PoolsOk ↔ s.OwnersOk ∧ s.CoreOk ∧ ∀ i, s.StreamOk (s.clock i) i := by
  constructor
  · intro h
    have core : s.CoreOk := ⟨h.places, h.descs, h.pages, h.data, h.move.kind⟩
    have own : ∀ i, ∀ m ∈ s.liveMove i, (s.stream i).moving = true ∧ m.generation = (s.stream i).generation ∧
        m.direction = (s.stream i).direction := fun i m hm => by
      obtain ⟨m', hm', rfl, hv, rfl⟩ := mem_liveMove.mp hm
      exact h.move.own m' hm' hv
    refine ⟨h.owners, core, fun i => ?_⟩
    obtain ⟨loose, rests⟩ := (queueOk_iff core).mp (h.queues i)
    refine ⟨⟨loose, fun hd => ?_, fun hd => ?_⟩, rests⟩
    · refine ⟨h.backlog.play i hd, fun m hm => ?_, h.lead.four i, ringBehindHead_iff.mp (h.lead.behindHead i hd),
        fun hc => h.lead.none i (.inr hc)⟩
      obtain ⟨-, hg, hdir⟩ := own i m hm
      obtain ⟨m', hm', rfl, hv, rfl⟩ := mem_liveMove.mp hm
      have play : m'.direction = .play := hdir.trans hd
      obtain ⟨hf, hp⟩ := h.move.play m' hm' hv play
      exact ⟨hg, play, hf, hp, h.lead.carried m' hm' hv play⟩
    · have move : ∀ m ∈ s.liveMove i, m.generation = (s.stream i).generation ∧ m.direction = .capture := fun m hm =>
        ⟨(own i m hm).2.1, (own i m hm).2.2.trans hd⟩
      refine ⟨h.held i, h.lead.none i (.inl hd), move, ?_, h.backlog.samples i⟩
      rw [← carriedPosition_eq fun m hm => (move m hm).2]
      exact h.backlog.order i hd
  · rintro ⟨howners, core, hst⟩
    have play := fun i hd => (hst i).loose.play hd
    have capture := fun i hd => (hst i).loose.capture hd
    have live : ∀ m ∈ s.inFlight, m.void = false → ({ m with mute := false } : Move) ∈ s.liveMove m.stream := fun m hm hv =>
      mem_liveMove.mpr ⟨m, hm, rfl, hv, rfl⟩
    refine ⟨howners, fun i => ?_, core.places, core.descs, fun i => (queueOk_iff core).mpr ⟨(hst i).loose.queue, (hst i).rests⟩,
      ⟨fun m hm hv => ?_, core.kinds, fun m hm hv hd => ?_⟩, ⟨fun i hd => ?_, fun i hd => (play i hd).silent, fun i e he xs hk => ?_⟩,
      core.pages, ⟨fun i => ?_, fun i hd => ringBehindHead_iff.mpr (play i hd).behind, fun m hm hv hd => ?_, fun i hc => ?_⟩, core.data⟩
    · cases hd : (s.stream i).direction with
      | play =>
        rw [State.heldCount, (play i hd).silent]
        have := Bool.toNat_le (s.heldInFlight i)
        simp only [List.countP_nil]
        omega
      | capture => exact (capture i hd).held
    · cases hd : (s.stream m.stream).direction with
      | play =>
        obtain ⟨hg, hdir, hf, -⟩ := (play _ hd).move _ (live m hm hv)
        exact ⟨(hst _).loose.queue.moving_of_headFrame hf, hg, hdir⟩
      | capture =>
        obtain ⟨hg, hdir⟩ := (capture _ hd).move _ (live m hm hv)
        refine ⟨(hst _).loose.queue.moving_of_waiting ?_, hg, hdir⟩
        rw [← (capture _ hd).order, Option.mem_def.mp (live m hm hv)]
        simp
    · cases hsd : (s.stream m.stream).direction with
      | play =>
        obtain ⟨-, -, hf, hp, -⟩ := (play _ hsd).move _ (live m hm hv)
        exact ⟨hf, hp⟩
      | capture =>
        have hdir := ((capture _ hsd).move _ (live m hm hv)).2
        exact absurd (hd.symm.trans hdir) (by decide)
    · rw [carriedPosition_eq fun m hm => ((capture i hd).move m hm).2]
      exact (capture i hd).order
    · cases hd : (s.stream i).direction with
      | play => rw [(play i hd).silent] at he; cases he
      | capture => exact (capture i hd).samples e he xs hk
    · cases hd : (s.stream i).direction with
      | play => exact (play i hd).four
      | capture => rw [Stream.lead, (capture i hd).ring]; exact Nat.zero_le 4
    · cases hsd : (s.stream m.stream).direction with
      | play => exact ((play _ hsd).move _ (live m hm hv)).2.2.2.2
      | capture =>
        have hdir := ((capture _ hsd).move _ (live m hm hv)).2
        exact absurd (hd.symm.trans hdir) (by decide)
    · cases hd : (s.stream i).direction with
      | play => exact (play i hd).closed (hc.resolve_left fun e => by rw [hd] at e; cases e)
      | capture => exact (capture i hd).ring

end Sys2Proof.Machine

/-! ## The pools: what a step leaves alone -/

namespace Sys2Proof.Machine

theorem readyCapture_congr {s t : State} {q : List Handle} (x : Option Handle) (hq : ∀ h ∈ q, t.desc h = s.desc h) :
    t.readyCapture x q = s.readyCapture x q := by
  induction q generalizing x with
  | nil => rfl
  | cons h q ih =>
    simp only [State.readyCapture, hq h (by simp), ih (some h) fun y hy => hq y (List.mem_cons_of_mem _ hy)]

theorem readyPlay_congr {s t : State} {q : List Handle} (hq : ∀ h ∈ q, t.desc h = s.desc h) :
    t.readyPlay q = s.readyPlay q := by
  cases q with
  | nil => rfl
  | cons h q => simp only [State.readyPlay, hq h (by simp)]

/-- From `s` to `t` stream `j` keeps all that its invariant reads: its context apart from the sounding flag and the gap
accounting, its queued descriptors and its move. -/
structure SameStream (j : StreamNo) (s t : State) : Prop where
  context : ∃ a b c, t.stream j = { s.stream j with sounding := a, gapOpen := b, record := c }
  descs : ∀ h ∈ (s.stream j).queue, t.desc h = s.desc h
  live : t.liveMove j = s.liveMove j
  held : t.heldInFlight j = true → s.heldInFlight j = true

namespace SameStream

variable {j : StreamNo} {s t u : State}

theorem refl (j : StreamNo) (s : State) : SameStream j s s := ⟨⟨_, _, _, rfl⟩, fun _ _ => rfl, rfl, id⟩

theorem trans (a : SameStream j s t) (b : SameStream j t u) : SameStream j s u := by
  obtain ⟨a1, a2, a3, ha⟩ := a.context
  obtain ⟨b1, b2, b3, hb⟩ := b.context
  refine ⟨⟨b1, b2, b3, by rw [hb, ha]⟩, fun h hq => ?_, b.live.trans a.live, fun h => a.held (b.held h)⟩
  rw [b.descs h (by rw [ha]; exact hq), a.descs h hq]

/-- The context stays as it is. -/
theorem of_stream (hs : t.stream j = s.stream j) (hd : ∀ h ∈ (s.stream j).queue, t.desc h = s.desc h)
    (hl : t.liveMove j = s.liveMove j) (hh : t.heldInFlight j = true → s.heldInFlight j = true) : SameStream j s t :=
  ⟨⟨_, _, _, hs⟩, hd, hl, hh⟩

theorem headFrame (a : SameStream j s t) : t.headFrame j = s.headFrame j := by
  obtain ⟨a1, a2, a3, ha⟩ := a.context
  rw [headFrame_eq, headFrame_eq, ha]
  cases hq : (s.stream j).queue with
  | nil => rfl
  | cons h q => simp only [List.head?_cons, Option.bind_some, a.descs h (by simp [hq])]

theorem nextEligible (a : SameStream j s t) : t.nextEligible j = s.nextEligible j := by
  obtain ⟨a1, a2, a3, ha⟩ := a.context
  have moving : (t.stream j).moving = (s.stream j).moving := by rw [ha]; rfl
  simp only [State.nextEligible, moving]
  rw [ha]
  simp only [readyCapture_congr none a.descs, readyPlay_congr a.descs]

theorem rests (a : SameStream j s t) (hs : s.Rests j) : t.Rests j := by
  obtain ⟨a1, a2, a3, ha⟩ := a.context
  refine ⟨fun h hh => ?_, a.nextEligible.trans hs.2⟩
  rw [ha] at hh
  rw [a.descs h (List.mem_of_mem_head? hh)]
  exact hs.1 h hh

theorem map_descs (a : SameStream j s t) : (s.stream j).queue.map t.desc = (s.stream j).queue.map s.desc :=
  List.map_congr_left a.descs

theorem queueLoose (a : SameStream j s t) (hs : s.QueueLoose j) : t.QueueLoose j := by
  obtain ⟨a1, a2, a3, ha⟩ := a.context
  have moving : (t.stream j).moving = (s.stream j).moving := by rw [ha]; rfl
  constructor
  · rw [ha]; exact hs.depth
  · intro h hh
    rw [ha] at hh ⊢
    rw [a.descs h hh]
    exact hs.own h hh
  · rw [ha]
    exact a.map_descs ▸ hs.order
  · intro hm h hh
    rw [moving] at hm
    rw [ha] at hh
    rw [a.descs h hh]
    exact hs.resting hm h hh
  · rw [ha]; exact hs.stopping
  · rw [ha]; exact hs.closed

theorem playFlow {n : FrameNo} (a : SameStream j s t) (hs : s.PlayFlow n j) : t.PlayFlow n j := by
  obtain ⟨a1, a2, a3, ha⟩ := a.context
  refine ⟨by rw [ha]; exact hs.silent, fun m hm => ?_, by rw [ha]; exact hs.four, fun h f e => ?_, by rw [ha]; exact hs.closed⟩
  · rw [a.live] at hm
    obtain ⟨hg, hd, hf, hp, hw⟩ := hs.move m hm
    obtain ⟨⟨q, hq⟩, -⟩ := headFrame_some hf
    rw [a.headFrame, ha, a.descs m.handle (by simp [hq])]
    exact ⟨hg, hd, hf, hp, hw⟩
  · rw [a.headFrame] at e
    rw [ha]
    exact hs.behind h f e

theorem captureFlow (a : SameStream j s t) (hs : s.CaptureFlow j) : t.CaptureFlow j := by
  obtain ⟨a1, a2, a3, ha⟩ := a.context
  refine ⟨?_, by rw [ha]; exact hs.ring, fun m hm => ?_, ?_, by rw [ha]; exact hs.samples⟩
  · have held := hs.held
    have less : (t.heldInFlight j).toNat ≤ (s.heldInFlight j).toNat := Bool.toNat_le_toNat a.held
    rw [State.heldCount] at held ⊢
    rw [ha]
    exact Nat.le_trans (Nat.add_le_add_left less _) held
  · rw [a.live] at hm; rw [ha]; exact hs.move m hm
  · rw [a.live, ha, hs.order]
    exact List.flatMap_congr fun h hh => by rw [a.descs h hh]

theorem streamLoose {n : FrameNo} (a : SameStream j s t) (hs : s.StreamLoose n j) : t.StreamLoose n j := by
  have direction : (t.stream j).direction = (s.stream j).direction := by
    obtain ⟨a1, a2, a3, ha⟩ := a.context
    rw [ha]
  refine ⟨a.queueLoose hs.queue, fun hd => a.playFlow (hs.play ?_), fun hd => a.captureFlow (hs.capture ?_)⟩ <;>
    exact direction.symm.trans hd

theorem streamOk {n : FrameNo} (a : SameStream j s t) (hs : s.StreamOk n j) : t.StreamOk n j :=
  ⟨a.streamLoose hs.loose, a.rests hs.rests⟩

end SameStream

/-! ### Another stream's step -/

/-- The queues of two streams hold no descriptor in common (R26). -/
theorem State.PlacesOk.disjoint {s : State} (hs : s.PlacesOk) {i j : StreamNo} (hij : j ≠ i) {h : Handle}
    (hj : h ∈ (s.stream j).queue) : h ∉ (s.stream i).queue := fun hi =>
  hij (((hs.queued h j).mp hj).2.symm.trans ((hs.queued h i).mp hi).2)

theorem liveMove_congr {s t : State} (h : t.inFlight = s.inFlight) (j : StreamNo) : t.liveMove j = s.liveMove j := by
  rw [State.liveMove, h]; rfl

theorem heldInFlight_congr {s t : State} {j : StreamNo} (h : t.inFlight = s.inFlight)
    (hg : (t.stream j).generation = (s.stream j).generation) : t.heldInFlight j = s.heldInFlight j := by
  rw [State.heldInFlight, h, hg]; rfl

theorem liveMove_voided {s t : State} {p : Move → Bool} (h : t.inFlight = s.inFlight.map fun m => { m with void := m.void || p m })
    {j : StreamNo} (hp : ∀ m, p m = true → m.stream ≠ j) : t.liveMove j = s.liveMove j := by
  rw [State.liveMove, h, State.liveMove]
  cases s.inFlight with
  | none => rfl
  | some m =>
    simp only [Option.map_some, Option.bind_some]
    cases hpm : p m with
    | false => simp
    | true => simp [hp m hpm]

theorem heldInFlight_voided {s t : State} {p : Move → Bool} {j : StreamNo} (h : t.inFlight = s.inFlight.map fun m => { m with void := m.void || p m })
    (hg : (t.stream j).generation = (s.stream j).generation) : t.heldInFlight j = s.heldInFlight j := by
  rw [State.heldInFlight, h, hg, State.heldInFlight]
  cases s.inFlight <;> rfl

/-- What belongs to one stream leaves every other stream as it is. -/
theorem EventFrame.sameStream {i j : StreamNo} {s t : State} (a : EventFrame i s t) (hs : s.PlacesOk) (hij : j ≠ i) :
    SameStream j s t := by
  have stream := a.others j hij
  refine SameStream.of_stream stream (fun h hh => a.descs h (hs.disjoint hij hh)) ?_ ?_
  · rcases a.inFlight with e | ⟨p, hp, e⟩
    · exact liveMove_congr e j
    · exact liveMove_voided e fun m hm em => hij (em.symm.trans (hp m hm))
  · rcases a.inFlight with e | ⟨p, hp, e⟩
    · exact fun h => heldInFlight_congr e (by rw [stream]) ▸ h
    · exact fun h => heldInFlight_voided e (by rw [stream]) ▸ h

theorem QueueFrame.sameStream {i j : StreamNo} {s t : State} (a : QueueFrame i s t) (hs : s.PlacesOk) (hij : j ≠ i) :
    SameStream j s t :=
  a.event.sameStream hs hij

/-! ### The domain's counter moves -/

/-- What a capture stream keeps does not read its domain's counter. -/
theorem State.StreamOk.capture_any {n : FrameNo} {s : State} {i : StreamNo} (h : s.StreamOk n i) (hd : (s.stream i).direction = .capture)
    (n' : FrameNo) : s.StreamOk n' i :=
  ⟨⟨h.loose.queue, fun e => absurd (hd.symm.trans e) (by decide), h.loose.capture⟩, h.rests⟩

/-- Nor does what a CLOSED stream keeps. -/
theorem State.StreamOk.closed_any {n : FrameNo} {s : State} {i : StreamNo} (h : s.StreamOk n i) (hc : (s.stream i).state = .closed)
    (n' : FrameNo) : s.StreamOk n' i := by
  have head : s.headFrame i = none := by rw [headFrame_eq, h.loose.queue.closed hc]; rfl
  refine ⟨⟨h.loose.queue, fun e => ?_, h.loose.capture⟩, h.rests⟩
  have flow := h.loose.play e
  refine ⟨flow.silent, fun m hm => ?_, flow.four, fun x f e => (by rw [head] at e; cases e), flow.closed⟩
  have hf := (flow.move m hm).2.2.1
  rw [head] at hf
  cases hf

end Sys2Proof.Machine

/-! ## The pools: a queue that comes to rest -/

namespace Sys2Proof.Machine

/-! ### One record of the queue changes -/

/-- The context of a stream whose ring, backlog or sounding flag alone has changed. -/
def Stream.SameQueue (a b : Stream) : Prop := ∃ r l c, a = { b with ring := r, backlog := l, sounding := c }

theorem isChain_replace {α : Type} {R : α → α → Prop} {front back : List α} {x y : α} (h : (front ++ x :: back).IsChain R)
    (hf : ∀ a ∈ front.getLast?, R a x → R a y) (hb : ∀ b ∈ back.head?, R x b → R y b) : (front ++ y :: back).IsChain R := by
  obtain ⟨h1, h2, h3⟩ := List.isChain_append.mp h
  obtain ⟨h4, h5⟩ := List.isChain_cons.mp h2
  refine List.isChain_append.mpr ⟨h1, List.isChain_cons.mpr ⟨fun b hm => hb b hm (h4 b hm), h5⟩, fun a ha b hm => ?_⟩
  obtain rfl : y = b := by simpa using hm
  exact hf a ha (h3 a ha x (by simp))

theorem map_desc_replace {s t : State} {q front back : List Handle} {h : Handle} (hq : q = front ++ h :: back)
    (hd : ∀ x ∈ front ++ back, t.desc x = s.desc x) :
    q.map t.desc = front.map s.desc ++ t.desc h :: back.map s.desc := by
  rw [hq, List.map_append, List.map_cons]
  congr 1
  · exact List.map_congr_left fun x hx => hd x (List.mem_append_left _ hx)
  · congr 1
    exact List.map_congr_left fun x hx => hd x (List.mem_append_right _ hx)

theorem State.QueueLoose.replace {s t : State} {i : StreamNo} {h : Handle} {front back : List Handle} (hs : s.QueueLoose i)
    (hq : (s.stream i).queue = front ++ h :: back) (hc : (t.stream i).SameQueue (s.stream i))
    (hd : ∀ x ∈ front ++ back, t.desc x = s.desc x)
    (hown : (t.desc h).generation = (s.desc h).generation ∧ (t.desc h).direction = (s.desc h).direction ∧
      (t.desc h).frameSize = (s.desc h).frameSize)
    (hrest : (s.stream i).moving = false → (t.desc h).eligible = false)
    (hfront : ∀ x ∈ front.getLast?, Descriptor.Ahead (s.stream i).direction (s.desc x) (s.desc h) →
      Descriptor.Ahead (s.stream i).direction (s.desc x) (t.desc h))
    (hback : ∀ x ∈ back.head?, Descriptor.Ahead (s.stream i).direction (s.desc h) (s.desc x) →
      Descriptor.Ahead (s.stream i).direction (t.desc h) (s.desc x)) : t.QueueLoose i := by
  obtain ⟨r, l, c, hc⟩ := hc
  have moving : (t.stream i).moving = (s.stream i).moving := by rw [hc]; rfl
  have cases : ∀ x ∈ (s.stream i).queue, x = h ∨ t.desc x = s.desc x := fun x hx => by
    rw [hq] at hx
    rcases List.mem_append.mp hx with hx | hx
    · exact .inr (hd x (List.mem_append_left _ hx))
    · rcases List.mem_cons.mp hx with rfl | hx
      · exact .inl rfl
      · exact .inr (hd x (List.mem_append_right _ hx))
  constructor
  · rw [hc]; exact hs.depth
  · intro x hx
    rw [hc] at hx ⊢
    rcases cases x hx with rfl | e
    · obtain ⟨o1, o2, o3⟩ := hs.own x hx
      exact ⟨hown.1.trans o1, hown.2.1.trans o2, hown.2.2.trans o3⟩
    · rw [e]; exact hs.own x hx
  · rw [hc]
    rw [map_desc_replace hq hd]
    refine isChain_replace (x := s.desc h) ?_ (fun a ha => ?_) fun b hb => ?_
    · rw [← map_desc_replace (t := s) hq fun _ _ => rfl]
      exact hs.order
    · obtain ⟨x, hx, rfl⟩ := by simpa using ha
      exact hfront x (by simpa using hx)
    · obtain ⟨x, hx, rfl⟩ := by simpa using hb
      exact hback x (by simpa using hx)
  · intro hm x hx
    rw [moving] at hm
    rw [hc] at hx
    rcases cases x hx with rfl | e
    · exact hrest hm
    · rw [e]; exact hs.resting hm x hx
  · rw [hc]; exact hs.stopping
  · rw [hc]; exact hs.closed

/-- What stands ahead still may, when the record behind goes no further back and becomes eligible only if it was. -/
theorem Descriptor.Ahead.right {dir : Direction} {d x y : Descriptor} (h : Descriptor.Ahead dir d x)
    (hs : x.stage ≤ y.stage ∨ d.stage = 0) (he : y.eligible = true → x.eligible = true) : Descriptor.Ahead dir d y :=
  ⟨hs.elim (Nat.le_trans h.stage) fun e => e ▸ Nat.zero_le _, h.loaded, fun e => h.eligible (he e)⟩

/-- A record that goes on, and stays fully assigned if it was, may stand where it stood. -/
theorem Descriptor.Ahead.left {dir : Direction} {x y d : Descriptor} (h : Descriptor.Ahead dir x d) (hs : y.stage ≤ x.stage)
    (hf : dir = .capture → x.fullyAssigned = true → y.fullyAssigned = true) : Descriptor.Ahead dir y d where
  stage := Nat.le_trans hs h.stage
  loaded e := by
    have := h.stage
    have := h.loaded
    have : d.stage ≤ 2 := by unfold Descriptor.stage; split <;> omega
    omega
  eligible e := ⟨(h.eligible e).1, hf (h.eligible e).1 (h.eligible e).2⟩

/-! ### Retirement by the last resolution -/

theorem drainIfEmpty_cases (s : State) (i : StreamNo) :
    s.drainIfEmpty i = s ∧ ((s.stream i).state ≠ .stopping ∨ (s.stream i).queue ≠ []) ∨
      ((s.stream i).state = .stopping ∧ (s.stream i).queue = []) ∧ s.drainIfEmpty i = (s.modStream i fun st =>
        { st with state := .idle, gapOpen := false, record := { st.record with drained := true } }).raiseOnce (.streamEvent i) := by
  by_cases h : (s.stream i).state = .stopping ∧ (s.stream i).queue = []
  · exact .inr ⟨h, drainIfEmpty_drains h.1 h.2⟩
  · have h := not_and_or.mp h
    exact .inl ⟨drainIfEmpty_stays h, h⟩

theorem CoreFrame.raiseOnce (s : State) {c : Claim} (hc : c.accounts = false) : CoreFrame s (s.raiseOnce c) where
  descs h := by simp
  queues i := by simp
  claims := by
    rw [State.raiseOnce_claims]
    split
    · rfl
    · rw [List.filter_append]
      simp [hc]
  pages p := by simp [State.entryPages]
  kinds m hm := ⟨m, by simpa using hm, rfl, rfl⟩

theorem CoreFrame.modStream (s : State) (i : StreamNo) (f : Stream → Stream) (hf : (f (s.stream i)).queue = (s.stream i).queue) :
    CoreFrame s (s.modStream i f) :=
  { CoreFrame.refl s with
    queues := fun j => by
      rw [State.stream_modStream]
      split
      · next e => rw [e]; exact hf
      · rfl }

theorem drainIfEmpty_coreFrame (s : State) (i : StreamNo) : CoreFrame s (s.drainIfEmpty i) := by
  rcases drainIfEmpty_cases s i with ⟨e, -⟩ | ⟨-, e⟩
  · rw [e]; exact CoreFrame.refl s
  · rw [e]; exact (CoreFrame.modStream s i _ rfl).trans (CoreFrame.raiseOnce _ rfl)

theorem waitingAt_spent {d : Descriptor} (h : d.Ok) (hs : d.spent = true) (hd : d.direction = .capture) (x : Handle) :
    d.waitingAt x = [] := by
  obtain ⟨he, hr⟩ : d.eligible = true ∧ d.frames ≤ d.resolved := by simpa [Descriptor.spent] using hs
  obtain ⟨-, ha, -⟩ := h.capture (Descriptor.live_of_eligible he) hd
  rw [Descriptor.waitingAt, if_pos he, show d.assigned - d.resolved = 0 by omega]
  rfl

theorem nextFrame_of_spent {d : Descriptor} (h : d.spent = true) : d.nextFrame = none := by
  obtain ⟨he, hr⟩ : d.eligible = true ∧ d.frames ≤ d.resolved := by simpa [Descriptor.spent] using h
  exact if_neg fun e => by omega

theorem nextFrame_of_not_eligible {d : Descriptor} (h : d.eligible = false) : d.nextFrame = none :=
  if_neg fun e => by rw [h] at e; cases e.1

/-- With no frame to move for, a play stream has no move that is not void. -/
theorem State.PlayFlow.no_move {n : FrameNo} {s : State} {i : StreamNo} (h : s.PlayFlow n i) (hf : s.headFrame i = none) :
    s.liveMove i = none := by
  rw [Option.eq_none_iff_forall_not_mem]
  intro m hm
  have := (h.move m hm).2.2.1
  rw [hf] at this
  cases this

/-- In a play queue nothing is eligible behind the head (R32). -/
theorem play_behind {s : State} {i : StreamNo} {h : Handle} {q : List Handle} (hs : s.QueueLoose i)
    (hq : (s.stream i).queue = h :: q) (hd : (s.stream i).direction = .play) : ∀ x ∈ q.head?, (s.desc x).eligible = false := by
  have order := hs.order
  rw [hq, hd, List.map_cons] at order
  intro x hx
  have ahead := order.rel_head? (show s.desc x ∈ (q.map s.desc).head? by simpa using ⟨x, hx, rfl⟩)
  rw [Bool.eq_false_iff]
  intro e
  exact absurd (ahead.eligible e).1 (by decide)

section
variable {n : FrameNo} {s : State} {i : StreamNo} {h : Handle} {q : List Handle}

/-- The queue without its head, and the stream still moving or drained (R44, R12). -/
theorem retireResolved_queueLoose (hs : s.QueueLoose i) (hp : s.PlacesOk) (hq : (s.stream i).queue = h :: q) :
    (s.retireResolved i h).QueueLoose i ∧ ((s.retireResolved i h).stream i).queue = q ∧
      ∀ x ∈ q, (s.retireResolved i h).desc x = s.desc x := by
  have stream : (s.retire i h (s.desc h).resolvedOutcome).stream i = { s.stream i with queue := q } := by
    rw [retire_stream, if_pos rfl, hq, List.erase_cons_head]
  have notHead : h ∉ q := (List.nodup_cons.mp (hq ▸ hp.once i)).1
  have desc : ∀ x ∈ q, (s.retire i h (s.desc h).resolvedOutcome).desc x = s.desc x := fun x hx => by
    rw [retire_desc, if_neg fun e : x = h => notHead (e ▸ hx)]
  have sub : ∀ x ∈ q, x ∈ (s.stream i).queue := fun x hx => hq ▸ List.mem_cons_of_mem _ hx
  have notClosed : (s.stream i).state ≠ .closed := fun e => by
    have := hs.closed e
    rw [hq] at this
    cases this
  rcases drainIfEmpty_cases (s.retire i h (s.desc h).resolvedOutcome) i with ⟨e, hstay⟩ | ⟨⟨-, hempty⟩, e⟩
  · rw [State.retireResolved, e]
    refine ⟨⟨?_, fun x hx => ?_, ?_, fun hm x hx => ?_, fun hst => ?_, fun hcl => ?_⟩, by rw [stream], desc⟩
    · rw [stream]
      have := hs.depth
      rw [hq, List.length_cons] at this
      exact Nat.le_of_succ_le this
    · rw [stream] at hx ⊢
      rw [desc x hx]
      exact hs.own x (sub x hx)
    · have order := hs.order
      rw [hq] at order
      rw [stream]
      exact List.map_congr_left desc ▸ order.tail
    · rw [stream] at hm hx
      rw [desc x hx]
      exact hs.resting hm x (sub x hx)
    · exact hstay.resolve_left fun hn => hn hst
    · rw [stream] at hcl
      exact absurd hcl notClosed
  · have hnil : q = [] := by rw [stream] at hempty; exact hempty
    subst hnil
    rw [State.retireResolved, e]
    refine ⟨⟨?_, fun x hx => ?_, ?_, fun hm x hx => ?_, fun hst => ?_, fun hcl => ?_⟩, ?_, fun x hx => by cases hx⟩
    · simp [stream]
    · simp [stream] at hx
    · simp [stream]
    · simp [stream] at hx
    · simp at hst
    · simp at hcl
    · simp [stream]

/-- The context of a stream after a retirement: its queue shorter, and perhaps drained. -/
theorem retireResolved_context (hq : (s.stream i).queue = h :: q) : ∃ st g r, (st = .closed → (s.stream i).state = .closed) ∧
    (s.retireResolved i h).stream i = { s.stream i with queue := q, state := st, gapOpen := g, record := r } := by
  have stream : (s.retire i h (s.desc h).resolvedOutcome).stream i = { s.stream i with queue := q } := by
    rw [retire_stream, if_pos rfl, hq, List.erase_cons_head]
  rcases drainIfEmpty_cases (s.retire i h (s.desc h).resolvedOutcome) i with ⟨e, -⟩ | ⟨-, e⟩
  · exact ⟨_, _, _, id, by rw [State.retireResolved, e, stream]⟩
  · refine ⟨.idle, false, { (s.stream i).record with drained := true }, (fun hc => by cases hc), ?_⟩
    rw [State.retireResolved, e, State.raiseOnce_stream, State.stream_modStream_same, stream]

theorem retireResolved_keeps (hc : s.CoreOk) (hl : s.StreamLoose n i) (hq : (s.stream i).queue = h :: q)
    (hs : (s.desc h).spent = true) : (s.retireResolved i h).CoreOk ∧ (s.retireResolved i h).StreamLoose n i := by
  have inQueue : h ∈ (s.stream i).queue := by simp [hq]
  obtain ⟨hqueue, hrest, hdesc⟩ := retireResolved_queueLoose hl.queue hc.places hq
  obtain ⟨st, g, r, hclosed, hstream⟩ := retireResolved_context hq
  have frame := QueueFrame.retireResolved (i := i) inQueue
  have live := liveMove_congr frame.inFlight i
  have held := heldInFlight_congr frame.inFlight (j := i) (by rw [hstream])
  refine ⟨(drainIfEmpty_coreFrame _ i).keeps (hc.retire inQueue ((hc.descs h).retireResolved hs)), hqueue, fun hd => ?_, fun hd => ?_⟩
  · have hd : (s.stream i).direction = .play := by rw [hstream] at hd; exact hd
    have flow := hl.play hd
    have head : s.headFrame i = none := by
      rw [headFrame_eq, hq, List.head?_cons, Option.bind_some, nextFrame_of_spent hs]
      rfl
    have head' : (s.retireResolved i h).headFrame i = none := by
      rw [headFrame_eq, hrest, Option.bind_eq_none_iff]
      intro x hx
      rw [hdesc x (List.mem_of_mem_head? hx), nextFrame_of_not_eligible (play_behind hl.queue hq hd x hx)]
      rfl
    refine ⟨by rw [hstream]; exact flow.silent, fun m hm => ?_, by rw [hstream]; exact flow.four, fun x f e => ?_, fun hcl => ?_⟩
    · rw [live, flow.no_move head] at hm
      cases hm
    · rw [head'] at e
      cases e
    · rw [hstream] at hcl ⊢
      exact flow.closed (hclosed hcl)
  · have hd : (s.stream i).direction = .capture := by rw [hstream] at hd; exact hd
    have flow := hl.capture hd
    refine ⟨?_, by rw [hstream]; exact flow.ring, fun m hm => ?_, ?_, by rw [hstream]; exact flow.samples⟩
    · rw [State.heldCount, held, hstream]; exact flow.held
    · rw [live] at hm; rw [hstream]; exact flow.move m hm
    · have order := flow.order
      rw [hq, List.flatMap_cons, waitingAt_spent (hc.descs h) hs ((hl.queue.own h inQueue).2.1.trans hd), List.nil_append] at order
      rw [live, hrest, hstream, order]
      exact List.flatMap_congr fun x hx => by rw [hdesc x hx]

end

/-! ### A play descriptor becomes eligible -/

/-- However T lies to the first free frame, the first position that is not late lies at or past it (R33, R35). -/
theorem play_start_clear (S N : FrameNo) {lead frames : Nat} (hl : lead ≤ 4)
    (hk : playLateCount S (frameOf N lead) frames < frames) :
    lead ≤ (frameOf S (playLateCount S (frameOf N lead) frames) - N).toNat := by
  have hS := S.isLt
  have hN := N.isLt
  have dist : (frameOf N lead - S).toNat = (N.toNat + lead + (2 ^ 32 - S.toNat)) % 2 ^ 32 := by
    simp only [frameOf, BitVec.toNat_sub, BitVec.toNat_add, BitVec.toNat_ofNat]
    omega
  have at_ : ∀ k, (frameOf S k - N).toNat = (S.toNat + k + (2 ^ 32 - N.toNat)) % 2 ^ 32 := fun k => by
    simp only [frameOf, BitVec.toNat_sub, BitVec.toNat_add, BitVec.toNat_ofNat]
    omega
  unfold playLateCount at hk ⊢
  rw [dist] at hk ⊢
  rw [at_]
  split at hk
  · next hc => rw [if_pos hc]; omega
  · next hc => rw [if_neg hc]; omega

/-- What `makePlayEligible` makes of the record (R33, R35). -/
def Descriptor.playStart (d : Descriptor) (S E : FrameNo) : Descriptor :=
  ({ d with state := .waiting, span := some S } : Descriptor).resolvePlay .late (playLateCount S E d.frames)

theorem makePlayEligible_eq (s : State) (i : StreamNo) (h : Handle) (t : FrameTime) :
    let E := s.firstFree i t
    let S := (s.desc h).start.spanStart E
    s.makePlayEligible i h t = (s.modDesc h fun d => d.playStart S E).release
      (({ s.desc h with state := .waiting, span := some S } : Descriptor).endedPages (playLateCount S E (s.desc h).frames)) := by
  intro E S
  rw [State.makePlayEligible, State.resolvePlay_eq, State.modDesc_modDesc, State.desc_modDesc_same]
  exact congrArg (fun u : State => u.release _) (State.modDesc_congr rfl)

theorem Descriptor.Ok.playStart {d : Descriptor} (h : d.Ok) (hr : d.state = .ready) (hd : d.direction = .play) (S E : FrameNo) :
    (d.playStart S E).Ok := by
  refine (h.waiting hr S).resolvePlay rfl hd .late ?_
  have := (h.fresh (.inr hr)).1
  have := playLateCount_le S E d.frames
  simp only
  omega

theorem nextEligible_play {s : State} {i : StreamNo} (hd : (s.stream i).direction = .play) {e : Handle} {a : Option Handle}
    (h : s.nextEligible i = some (e, a)) : (s.stream i).moving = true ∧ (s.desc e).state = .ready ∧ a = none ∧
      ∃ q, (s.stream i).queue = e :: q := by
  obtain ⟨-, hr, hm⟩ := State.nextEligible_mem h
  rw [State.nextEligible, if_pos hm, hd] at h
  cases hq : (s.stream i).queue with
  | nil => simp [hq, State.readyPlay] at h
  | cons x q =>
    simp only [hq, State.readyPlay] at h
    split at h
    · cases h; exact ⟨hm, hr, rfl, q, rfl⟩
    · cases h

theorem nextFrame_playStart {d : Descriptor} (h : d.resolved = 0) {S E : FrameNo} {f : FrameNo}
    (e : (d.playStart S E).nextFrame = some f) :
    playLateCount S E d.frames < d.frames ∧ f = frameOf S (playLateCount S E d.frames) := by
  have resolved : (d.playStart S E).resolved = playLateCount S E d.frames := by
    simp [Descriptor.playStart, Descriptor.resolvePlay, h]
  obtain ⟨-, hlt, S', hS, rfl⟩ := nextFrame_some e
  rw [resolved] at hlt ⊢
  cases hS
  exact ⟨hlt, rfl⟩

theorem makePlayEligible_keeps {n : FrameNo} {s : State} {i : StreamNo} {e : Handle} {q : List Handle} {t : FrameTime}
    (hn : t.playN = n) (hc : s.CoreOk) (hl : s.StreamLoose n i) (hd : (s.stream i).direction = .play)
    (hm : (s.stream i).moving = true) (hq : (s.stream i).queue = e :: q) (hr : (s.desc e).state = .ready) :
    (s.makePlayEligible i e t).CoreOk ∧ (s.makePlayEligible i e t).StreamLoose n i := by
  have inQueue : e ∈ (s.stream i).queue := by simp [hq]
  have dir : (s.desc e).direction = .play := (hl.queue.own e inQueue).2.1.trans hd
  have live : (s.desc e).state.live = true := by rw [hr]; rfl
  obtain ⟨notHead, -⟩ := List.nodup_cons.mp (hq ▸ hc.places.once i)
  have flow := hl.play hd
  have start := makePlayEligible_eq s i e t
  dsimp only at start
  generalize hE : s.firstFree i t = E at start
  generalize hS : (s.desc e).start.spanStart E = S at start
  have self : (s.makePlayEligible i e t).desc e = (s.desc e).playStart S E := by
    rw [start, State.release_desc, State.desc_modDesc_same]
  have other : ∀ x, x ≠ e → (s.makePlayEligible i e t).desc x = s.desc x := fun x hx => by
    rw [start, State.release_desc, State.desc_modDesc_ne _ _ hx]
  have stream : ∀ j, (s.makePlayEligible i e t).stream j = s.stream j := fun j => by rw [start]; rfl
  have inFlight : (s.makePlayEligible i e t).inFlight = s.inFlight := by rw [start]; rfl
  have head : s.headFrame i = none := by
    rw [headFrame_eq, hq, List.head?_cons, Option.bind_some, nextFrame_of_not_eligible (Descriptor.not_eligible_of_ready hr)]
    rfl
  refine ⟨hc.handOver (h := e) (cs := []) live (by rw [self]; rfl) (by rw [self]; rfl)
    (by rw [self]; exact (hc.descs e).playStart hr dir S E) other (fun j => by rw [stream])
    (congrArg State.freeList start) (by rw [start]; simp) (by rw [start]; rfl)
    (fun m hmem => ⟨m, inFlight ▸ hmem, rfl, rfl⟩) ?_ (by simp), ?_, fun _ => ?_, fun hd' => ?_⟩
  · rw [self, List.filterMap_nil, List.append_nil]
    exact Descriptor.heldPages_resolvePlay { s.desc e with state := .waiting, span := some S } .late _
  · refine hl.queue.replace (front := []) hq ⟨_, _, _, stream i⟩ (fun x hx => other x fun hxe => notHead (hxe ▸ hx))
      (by rw [self]; exact ⟨rfl, rfl, rfl⟩) (fun hn => by rw [hm] at hn; cases hn) (fun x hx => by cases hx) fun x hx ha => ?_
    rw [self]
    exact ha.left (Nat.zero_le _) fun hcap => absurd (hd.symm.trans hcap) (by decide)
  · refine ⟨by rw [stream]; exact flow.silent, fun m hmem => ?_, by rw [stream]; exact flow.four, fun x f hf _ => ?_,
      by rw [stream]; exact flow.closed⟩
    · rw [liveMove_congr inFlight i, flow.no_move head] at hmem
      cases hmem
    · obtain ⟨⟨q', hq'⟩, hnext⟩ := headFrame_some hf
      obtain ⟨rfl, -⟩ := List.cons_eq_cons.mp (hq.symm.trans ((congrArg Stream.queue (stream i)).symm.trans hq'))
      rw [self] at hnext
      obtain ⟨hlt, rfl⟩ := nextFrame_playStart ((hc.descs e).fresh (.inr hr)).1 hnext
      rw [stream]
      have free : E = frameOf n (s.stream i).ring.length := by rw [← hE, State.firstFree, hn]; rfl
      rw [free] at hlt ⊢
      exact play_start_clear S n flow.four hlt
  · rw [stream, hd] at hd'
    cases hd'

/-! ### A capture descriptor becomes eligible -/

theorem State.modStream_self {s : State} {i : StreamNo} {f : Stream → Stream} (h : f (s.stream i) = s.stream i) :
    s.modStream i f = s := by
  have same : s.streams.set i.val (s.stream i) i.isLt = s.streams := Vector.set_getElem_self i.isLt
  rw [State.modStream, h, same]

theorem readyCapture_split {s : State} {ahead : Option Handle} {q : List Handle} {e : Handle} {a : Option Handle}
    (h : s.readyCapture ahead q = some (e, a)) : ∃ front back, q = front ++ e :: back ∧
      (∀ x ∈ front, (s.desc x).fullyAssigned = true) ∧ (s.desc e).state = .ready ∧ a = front.getLast?.or ahead := by
  induction q generalizing ahead with
  | nil => cases h
  | cons x q ih =>
    unfold State.readyCapture at h
    split at h
    · next hr =>
      cases h
      exact ⟨[], q, rfl, (fun _ hx => by cases hx), hr, rfl⟩
    · split at h
      · next hf =>
        obtain ⟨front, back, hq, hfull, hr, ha⟩ := ih h
        refine ⟨x :: front, back, by rw [hq]; rfl, List.forall_mem_cons.mpr ⟨hf, hfull⟩, hr, ?_⟩
        rw [ha]
        cases front with
        | nil => rfl
        | cons y ys =>
          rw [List.getLast?_cons_cons]
          cases hl : (y :: ys).getLast? with
          | none => simp at hl
          | some z => rfl
      · cases h

theorem nextEligible_capture {s : State} {i : StreamNo} (hd : (s.stream i).direction = .capture) {e : Handle} {a : Option Handle}
    (h : s.nextEligible i = some (e, a)) : (s.stream i).moving = true ∧ (s.desc e).state = .ready ∧
      ∃ front back, (s.stream i).queue = front ++ e :: back ∧ (∀ x ∈ front, (s.desc x).fullyAssigned = true) ∧
        a = front.getLast? := by
  obtain ⟨-, hr, hm⟩ := State.nextEligible_mem h
  rw [State.nextEligible, if_pos hm, hd] at h
  obtain ⟨front, back, hq, hf, -, ha⟩ := readyCapture_split h
  exact ⟨hm, hr, front, back, hq, hf, by rw [ha, Option.or_none]⟩

/-- What `makeCaptureEligible` makes of the record (R34, R36): `n` of its positions are early. -/
def Descriptor.captureStart (d : Descriptor) (S : FrameNo) (n : Nat) : Descriptor :=
  if n = d.frames then
    { d with
      state := .waiting, span := some S, assigned := d.frames, resolved := d.frames,
      counts := { d.counts with late := d.frames } }
  else { d with state := .waiting, span := some S, assigned := n }

/-- The backlog entries of the early positions: none when all of them are (R36). -/
def Descriptor.lateEntries (d : Descriptor) (h : Handle) (S : FrameNo) (n : Nat) : List BacklogEntry :=
  if n = d.frames then [] else zeroPositionsFrom h S .lateZero 0 n

theorem makeCaptureEligible_eq (s : State) (i : StreamNo) (h : Handle) (a : Option Handle) (t : FrameTime) :
    let Q := s.firstOpen a t
    let S := (s.desc h).start.spanStart Q
    let n := lateCount S Q (s.desc h).frames
    s.makeCaptureEligible i h a t = (s.modDesc h fun d => d.captureStart S n).modStream i fun st =>
      { st with backlog := st.backlog ++ (s.desc h).lateEntries h S n } := by
  intro Q S n
  unfold State.makeCaptureEligible
  dsimp only
  split
  · next e =>
    rw [Descriptor.lateEntries, if_pos e, State.modStream_self (by simp)]
    refine State.modDesc_congr ?_
    rw [Descriptor.captureStart, if_pos e]
  · next e =>
    rw [Descriptor.lateEntries, if_neg e]
    refine congrArg (fun u : State => u.modStream i _) (State.modDesc_congr ?_)
    rw [Descriptor.captureStart, if_neg e]

theorem Descriptor.captureStart_spec (d : Descriptor) (S : FrameNo) (n : Nat) :
    (d.captureStart S n).state = .waiting ∧ (d.captureStart S n).order = d.order ∧
      (d.captureStart S n).gone = d.gone := by
  unfold Descriptor.captureStart
  split <;> exact ⟨rfl, rfl, rfl⟩

theorem Descriptor.order_frameSize {d e : Descriptor} (h : e.order = d.order) :
    e.generation = d.generation ∧ e.direction = d.direction ∧ e.frameSize = d.frameSize := by
  simp only [Descriptor.order, Prod.mk.injEq] at h
  obtain ⟨⟨-, hg, hd, -⟩, ⟨hf, hb, -, -⟩, -, -⟩ := h
  exact ⟨hg, hd, by rw [Descriptor.frameSize, hb, hf]; rfl⟩

theorem Descriptor.Ok.captureStart {d : Descriptor} (h : d.Ok) (hr : d.state = .ready) (hd : d.direction = .capture)
    (S : FrameNo) {n : Nat} (hn : n ≤ d.frames) : (d.captureStart S n).Ok := by
  unfold Descriptor.captureStart
  split
  · exact h.allLate hr hd S
  · refine (h.waiting hr S).assign rfl ?_ hn
    rw [show d.assigned = 0 from (h.fresh (.inr hr)).2.2.1]
    exact Nat.zero_le n

/-- The early positions of a record that becomes eligible wait in the backlog (R36). -/
theorem waitingAt_captureStart {d : Descriptor} (hr : d.resolved = 0) (h : Handle) (S : FrameNo) (n : Nat) :
    (d.captureStart S n).waitingAt h = (d.lateEntries h S n).map BacklogEntry.place := by
  unfold Descriptor.captureStart Descriptor.lateEntries
  split
  · simp [Descriptor.waitingAt, Descriptor.eligible]
  · simp [Descriptor.waitingAt, Descriptor.eligible, hr, zeroPositionsFrom, BacklogEntry.place]

theorem waitingAt_of_not_eligible {d : Descriptor} (h : d.eligible = false) (x : Handle) : d.waitingAt x = [] := by
  simp [Descriptor.waitingAt, h]

/-- The positions waiting in a queue end with those of a descriptor that is not fully assigned (R32, R42). -/
theorem flatMap_waiting {s t : State} {i : StreamNo} {front back : List Handle} {h : Handle}
    (hs : ((s.stream i).queue.map s.desc).IsChain (Descriptor.Ahead .capture)) (hq : (s.stream i).queue = front ++ h :: back)
    (hf : (s.desc h).fullyAssigned = false) (hd : ∀ x ∈ front ++ back, t.desc x = s.desc x) :
    ((s.stream i).queue.flatMap fun x => (t.desc x).waitingAt x) =
      (front.flatMap fun x => (s.desc x).waitingAt x) ++ (t.desc h).waitingAt h := by
  rw [hq, List.map_append, List.map_cons] at hs
  have behind := Ahead.none_eligible (List.isChain_append.mp hs).2.1 hf
  have none : (back.flatMap fun x => (t.desc x).waitingAt x) = [] := List.flatMap_eq_nil_iff.mpr fun x hx => by
    rw [hd x (List.mem_append_right _ hx)]
    exact waitingAt_of_not_eligible (behind _ (List.mem_map_of_mem hx)) x
  rw [hq, List.flatMap_append, List.flatMap_cons, none, List.append_nil]
  congr 1
  exact List.flatMap_congr fun x hx => by rw [hd x (List.mem_append_left _ hx)]

theorem nodup_split {front back : List Handle} {h : Handle} (hn : (front ++ h :: back).Nodup) : h ∉ front ++ back := by
  have := (List.perm_middle.nodup_iff.mp hn)
  exact (List.nodup_cons.mp this).1

/-- Entries that join the backlog without a held frame leave the held frame count. -/
theorem countP_append_zero {l k : List BacklogEntry} (h : ∀ e ∈ k, e.kind.isHeld = false) :
    (l ++ k).countP (fun e => e.kind.isHeld) = l.countP fun e => e.kind.isHeld := by
  rw [List.countP_append, Nat.add_eq_left, List.countP_eq_zero]
  exact fun e he => by simp [h e he]

theorem kind_of_mem_zeroPositionsFrom {h : Handle} {S : FrameNo} {k : EntryKind} {p n : Nat} {e : BacklogEntry}
    (he : e ∈ zeroPositionsFrom h S k p n) : e.kind = k := by
  obtain ⟨j, -, rfl⟩ := List.mem_map.mp he
  rfl

theorem kind_of_mem_lateEntries {d : Descriptor} {h : Handle} {S : FrameNo} {n : Nat} {e : BacklogEntry}
    (he : e ∈ d.lateEntries h S n) : e.kind = .lateZero := by
  unfold Descriptor.lateEntries at he
  split at he
  · cases he
  · exact kind_of_mem_zeroPositionsFrom he

theorem makeCaptureEligible_keeps {n : FrameNo} {s : State} {i : StreamNo} {e : Handle} {a : Option Handle}
    {front back : List Handle} {t : FrameTime} (hc : s.CoreOk) (hl : s.StreamLoose n i) (hd : (s.stream i).direction = .capture)
    (hm : (s.stream i).moving = true) (hq : (s.stream i).queue = front ++ e :: back)
    (hfull : ∀ x ∈ front, (s.desc x).fullyAssigned = true) (hr : (s.desc e).state = .ready) :
    (s.makeCaptureEligible i e a t).CoreOk ∧ (s.makeCaptureEligible i e a t).StreamLoose n i := by
  have inQueue : e ∈ (s.stream i).queue := by simp [hq]
  have dir : (s.desc e).direction = .capture := (hl.queue.own e inQueue).2.1.trans hd
  have live : (s.desc e).state.live = true := by rw [hr]; rfl
  have notThere : e ∉ front ++ back := nodup_split (hq ▸ hc.places.once i)
  have flow := hl.capture hd
  have start := makeCaptureEligible_eq s i e a t
  dsimp only at start
  generalize s.firstOpen a t = Q at start
  generalize (s.desc e).start.spanStart Q = S at start
  have early := lateCount_le S Q (s.desc e).frames
  generalize lateCount S Q (s.desc e).frames = k at start early
  have self : (s.makeCaptureEligible i e a t).desc e = (s.desc e).captureStart S k := by
    rw [start, State.modStream_desc, State.desc_modDesc_same]
  have other : ∀ x, x ≠ e → (s.makeCaptureEligible i e a t).desc x = s.desc x := fun x hx => by
    rw [start, State.modStream_desc, State.desc_modDesc_ne _ _ hx]
  have stream : (s.makeCaptureEligible i e a t).stream i =
      { s.stream i with backlog := (s.stream i).backlog ++ (s.desc e).lateEntries e S k } := by
    rw [start, State.stream_modStream_same]
    rfl
  have inFlight : (s.makeCaptureEligible i e a t).inFlight = s.inFlight := by rw [start]; rfl
  obtain ⟨state, order, gone⟩ := (s.desc e).captureStart_spec S k
  have queues : ∀ j, ((s.makeCaptureEligible i e a t).stream j).queue = (s.stream j).queue := fun j => by
    rw [start, State.stream_modStream]
    split
    · next ej => rw [ej]; rfl
    · rfl
  refine ⟨hc.handOver (h := e) (ps := []) (cs := []) live (by rw [self, state]; rfl) ?_
    (by rw [self]; exact (hc.descs e).captureStart hr dir S early) other queues (by rw [start]; simp) (by rw [start]; simp)
    (by rw [start]; rfl) (fun m hmem => ⟨m, inFlight ▸ hmem, rfl, rfl⟩) ?_ (by simp), ?_, fun hd' => ?_, fun _ => ?_⟩
  · rw [self]
    exact congrArg (fun o => o.1.1) order
  · rw [self, List.filterMap_nil, List.nil_append, List.nil_append, Descriptor.heldPages, Descriptor.heldPages, gone]
    exact congrArg (fun o => o.2.1.2.2.2.drop (s.desc e).gone) order.symm
  · refine hl.queue.replace hq ⟨_, _, _, stream⟩ (fun x hx => other x fun hxe => notThere (hxe ▸ hx))
      (by rw [self]; exact Descriptor.order_frameSize order) (fun hn => by rw [hm] at hn; cases hn) (fun x hx ha => ?_) fun x hx ha => ?_
    · have full := hfull x (List.mem_of_getLast? hx)
      have first := Descriptor.stage_of_eligible (Descriptor.eligible_of_fullyAssigned full)
      exact ⟨by rw [first]; exact Nat.zero_le _, ha.loaded, fun _ => ⟨hd, full⟩⟩
    · rw [self]
      refine ha.left ?_ fun _ e => ?_
      · rw [Descriptor.stage, state]; exact Nat.zero_le _
      · rw [Descriptor.fullyAssigned, Descriptor.not_eligible_of_ready hr] at e; cases e
  · rw [stream, hd] at hd'
    cases hd'
  · have notFull : (s.desc e).fullyAssigned = false := by
      rw [Descriptor.fullyAssigned, Descriptor.not_eligible_of_ready hr, Bool.false_and]
    refine ⟨?_, by rw [stream]; exact flow.ring, fun m hmem => ?_, ?_, fun x hx xs hk => ?_⟩
    · rw [State.heldCount, heldInFlight_congr inFlight (by rw [stream]), stream]
      dsimp only
      rw [countP_append_zero fun x hx => by rw [kind_of_mem_lateEntries hx]; rfl]
      exact flow.held
    · rw [liveMove_congr inFlight i] at hmem
      rw [stream]
      exact flow.move m hmem
    · rw [liveMove_congr inFlight i, stream]
      dsimp only
      rw [flatMap_waiting (hd ▸ hl.queue.order) hq notFull fun x hx => other x fun hxe => notThere (hxe ▸ hx), self,
        waitingAt_captureStart ((hc.descs e).fresh (.inr hr)).1, List.map_append, ← List.append_assoc, flow.order,
        flatMap_waiting (t := s) (hd ▸ hl.queue.order) hq notFull fun _ _ => rfl,
        waitingAt_of_not_eligible (Descriptor.not_eligible_of_ready hr), List.append_nil]
    · rw [stream] at hx ⊢
      rcases List.mem_append.mp hx with hx | hx
      · exact flow.samples x hx xs hk
      · rw [kind_of_mem_lateEntries hx] at hk
        cases hk

/-! ### Turns enough -/

/-- What the queue of stream `i` can still do: each descriptor retires once, and is made eligible once (R32, R44). -/
def State.turnsLeft (s : State) (i : StreamNo) : Nat :=
  (s.stream i).queue.length + (s.stream i).queue.countP fun h => decide ((s.desc h).state = .ready)

theorem turnsLeft_le (s : State) (i : StreamNo) : s.turnsLeft i ≤ s.turns i := by
  have := List.countP_le_length (p := fun h => decide ((s.desc h).state = .ready)) (l := (s.stream i).queue)
  rw [State.turnsLeft, State.turns]
  omega

theorem turnsLeft_retire {s : State} {i : StreamNo} {h : Handle} {q : List Handle} (hs : s.QueueLoose i) (hp : s.PlacesOk)
    (hq : (s.stream i).queue = h :: q) : (s.retireResolved i h).turnsLeft i < s.turnsLeft i := by
  obtain ⟨-, hrest, hdesc⟩ := retireResolved_queueLoose hs hp hq
  have count : q.countP (fun x => decide (((s.retireResolved i h).desc x).state = .ready)) =
      q.countP fun x => decide ((s.desc x).state = .ready) := List.countP_congr fun x hx => by rw [hdesc x hx]
  rw [State.turnsLeft, State.turnsLeft, hrest, hq, List.length_cons, List.countP_cons, count]
  omega

/-- A READY descriptor of the queue is READY no longer, and the others are as they were. -/
theorem turnsLeft_eligible {s t : State} {i : StreamNo} {e : Handle} (hq : (t.stream i).queue = (s.stream i).queue)
    (he : e ∈ (s.stream i).queue) (hr : (s.desc e).state = .ready) (hr' : (t.desc e).state ≠ .ready)
    (hd : ∀ x, x ≠ e → t.desc x = s.desc x) : t.turnsLeft i < s.turnsLeft i := by
  obtain ⟨front, back, hsplit⟩ := List.append_of_mem he
  have le : ∀ l : List Handle, l.countP (fun x => decide ((t.desc x).state = .ready)) ≤
      l.countP fun x => decide ((s.desc x).state = .ready) := fun l => List.countP_mono_left fun x _ hx => by
    by_cases e' : x = e
    · subst e'; exact absurd (of_decide_eq_true hx) hr'
    · rwa [hd x e'] at hx
  have := le front
  have := le back
  rw [State.turnsLeft, State.turnsLeft, hq, hsplit, List.countP_append, List.countP_append, List.countP_cons, List.countP_cons]
  simp only [hr', hr, decide_false, decide_true, if_true, Bool.false_eq_true, if_false]
  omega

/-! ### The queue at rest -/

theorem rests_of_empty {s : State} {i : StreamNo} (h : (s.stream i).queue = []) : s.Rests i := by
  refine ⟨fun x hx => ?_, ?_⟩
  · rw [h] at hx
    cases hx
  · simp only [State.nextEligible, h, State.readyPlay, State.readyCapture]
    split
    · split <;> rfl
    · rfl

theorem makeEligible_keeps {n : FrameNo} {s : State} {i : StreamNo} {e : Handle} {a : Option Handle} {t : FrameTime}
    (hn : (s.stream i).direction = .play → t.playN = n) (hc : s.CoreOk) (hl : s.StreamLoose n i)
    (he : s.nextEligible i = some (e, a)) :
    (s.makeEligible i e a t).CoreOk ∧ (s.makeEligible i e a t).StreamLoose n i ∧
      (s.makeEligible i e a t).turnsLeft i < s.turnsLeft i := by
  have inQueue := (State.nextEligible_mem he).1
  cases hd : (s.stream i).direction with
  | play =>
    obtain ⟨hm, hr, -, q, hq⟩ := nextEligible_play hd he
    have eq : s.makeEligible i e a t = s.makePlayEligible i e t := by simp only [State.makeEligible, hd]
    have start := makePlayEligible_eq s i e t
    dsimp only at start
    rw [eq]
    obtain ⟨core, loose⟩ := makePlayEligible_keeps (t := t) (hn hd) hc hl hd hm hq hr
    refine ⟨core, loose, turnsLeft_eligible (by rw [start]; rfl) inQueue hr ?_ fun x hx => ?_⟩
    · rw [start, State.release_desc, State.desc_modDesc_same]
      exact fun e => by cases e
    · rw [start, State.release_desc, State.desc_modDesc_ne _ _ hx]
  | capture =>
    obtain ⟨hm, hr, front, back, hq, hfull, -⟩ := nextEligible_capture hd he
    have eq : s.makeEligible i e a t = s.makeCaptureEligible i e a t := by simp only [State.makeEligible, hd]
    have start := makeCaptureEligible_eq s i e a t
    dsimp only at start
    rw [eq]
    obtain ⟨core, loose⟩ := makeCaptureEligible_keeps (a := a) (t := t) hc hl hd hm hq hfull hr
    refine ⟨core, loose, turnsLeft_eligible ?_ inQueue hr ?_ fun x hx => ?_⟩
    · rw [start, State.stream_modStream_same]; rfl
    · rw [start, State.modStream_desc, State.desc_modDesc_same, (Descriptor.captureStart_spec _ _ _).1]
      exact fun e => by cases e
    · rw [start, State.modStream_desc, State.desc_modDesc_ne _ _ hx]

/-- A queue with turns enough comes to rest, and all the while the pools and its stream keep what they keep (R32, R35, R36,
R44). -/
theorem settleQueue_keeps {n : FrameNo} {i : StreamNo} {t : FrameTime} (k : Nat) {s : State}
    (hn : (s.stream i).direction = .play → t.playN = n) (hc : s.CoreOk) (hl : s.StreamLoose n i) (hk : s.turnsLeft i ≤ k) :
    (State.settleQueue i t k s).CoreOk ∧ (State.settleQueue i t k s).StreamOk n i := by
  induction k generalizing s with
  | zero =>
    have empty : (s.stream i).queue = [] := List.length_eq_zero_iff.mp (by rw [State.turnsLeft] at hk; omega)
    exact ⟨hc, hl, rests_of_empty empty⟩
  | succ k ih =>
    unfold State.settleQueue
    split
    · next empty => exact ⟨hc, hl, rests_of_empty empty⟩
    · next h q hq =>
      split
      · next hs =>
        obtain ⟨core, loose⟩ := retireResolved_keeps hc hl hq hs
        refine ih (fun hd => hn ?_) core loose (Nat.le_of_lt_succ (Nat.lt_of_lt_of_le (turnsLeft_retire hl.queue hc.places hq) hk))
        exact (QueueFrame.retireResolved (i := i) (h := h) (by simp [hq])).opening.2.1.symm.trans hd
      · next hs =>
        split
        · next hnone =>
          exact ⟨hc, hl, fun x hx => by
            rw [hq, List.head?_cons, Option.mem_def, Option.some.injEq] at hx
            rw [← hx]
            simpa using hs, hnone⟩
        · next e a he =>
          obtain ⟨core, loose, less⟩ := makeEligible_keeps hn hc hl he
          refine ih (fun hd => hn ?_) core loose (Nat.le_of_lt_succ (Nat.lt_of_lt_of_le less hk))
          exact (QueueFrame.makeEligible a t (State.nextEligible_mem he).1).opening.2.1.symm.trans hd

theorem settleAt_keeps {n : FrameNo} {i : StreamNo} {t : FrameTime} {s : State}
    (hn : (s.stream i).direction = .play → t.playN = n) (hc : s.CoreOk) (hl : s.StreamLoose n i) :
    (s.settleAt i t).CoreOk ∧ (s.settleAt i t).StreamOk n i :=
  settleQueue_keeps _ hn hc hl (turnsLeft_le s i)

theorem settle_keeps {i : StreamNo} {s : State} (hc : s.CoreOk) (hl : s.StreamLoose (s.clock i) i) :
    (s.settle i).CoreOk ∧ (s.settle i).StreamOk (s.clock i) i :=
  settleAt_keeps (fun _ => rfl) hc hl

end Sys2Proof.Machine

/-! ## The pools: requests that move a stream -/

namespace Sys2Proof.Machine

/-! ### All streams at once -/

/-- The invariant without the ownership entries, for streams whose domains' counters stand at `clock`. -/
structure State.PartsOk (clock : StreamNo → FrameNo) (s : State) : Prop where
  core : s.CoreOk
  streams : ∀ i, s.StreamOk (clock i) i

theorem State.PoolsOk.parts {s : State} (h : s.PoolsOk) : s.PartsOk s.clock :=
  ⟨(poolsOk_iff.mp h).2.1, (poolsOk_iff.mp h).2.2⟩

/-- One stream is settled by hand, the others are as they were. -/
theorem State.PartsOk.step {clock : StreamNo → FrameNo} {s t : State} {i : StreamNo} (hs : s.PartsOk clock) (hc : t.CoreOk)
    (hi : t.StreamOk (clock i) i) (hj : ∀ j, j ≠ i → SameStream j s t) : t.PartsOk clock :=
  ⟨hc, fun j => by
    by_cases e : j = i
    · rw [e]; exact hi
    · exact (hj j e).streamOk (hs.streams j)⟩

/-- Nothing that the invariant reads has changed. -/
theorem State.PartsOk.same {clock : StreamNo → FrameNo} {s t : State} (hs : s.PartsOk clock) (hc : CoreFrame s t)
    (hj : ∀ j, SameStream j s t) : t.PartsOk clock :=
  ⟨hc.keeps hs.core, fun j => (hj j).streamOk (hs.streams j)⟩

/-- One stream has moved loosely, and its queue then comes to rest. -/
theorem State.PartsOk.settleAt {clock : StreamNo → FrameNo} {s u : State} {i : StreamNo} {t : FrameTime} (hs : s.PartsOk clock)
    (hn : (u.stream i).direction = .play → t.playN = clock i) (hc : u.CoreOk) (hi : u.StreamLoose (clock i) i)
    (hj : ∀ j, j ≠ i → SameStream j s u) : (u.settleAt i t).PartsOk clock := by
  obtain ⟨core, ok⟩ := settleAt_keeps hn hc hi
  exact hs.step (i := i) core ok fun j e => (hj j e).trans ((settleAt_frame u i t).sameStream hc.places e)

/-- A play stream's move and ring stay when its head's first unresolved position does. -/
theorem State.PlayFlow.keep {n : FrameNo} {s t : State} {i : StreamNo} (hs : s.PlayFlow n i)
    (hb : (t.stream i).backlog = (s.stream i).backlog) (hg : (t.stream i).generation = (s.stream i).generation)
    (hr : (t.stream i).ring = (s.stream i).ring)
    (hc : (t.stream i).state = .closed → (s.stream i).state = .closed) (hl : t.liveMove i = s.liveMove i)
    (hf : t.headFrame i = s.headFrame i)
    (hd : ∀ h f, s.headFrame i = some (h, f) → (t.desc h).resolved = (s.desc h).resolved) : t.PlayFlow n i := by
  refine ⟨hb.trans hs.silent, fun m hm => ?_, by rw [hr]; exact hs.four, fun h f e => ?_, fun e => by rw [hr]; exact hs.closed (hc e)⟩
  · rw [hl] at hm
    obtain ⟨h1, h2, h3, h4, h5⟩ := hs.move m hm
    exact ⟨h1.trans hg.symm, h2, hf.trans h3, h4.trans (hd _ _ h3).symm, h5⟩
  · rw [hr]
    exact hs.behind h f (hf.symm.trans e)

/-- A capture stream's move and backlog stay when the positions waiting in its queue do. -/
theorem State.CaptureFlow.keep {s t : State} {i : StreamNo} (hs : s.CaptureFlow i)
    (hb : (t.stream i).backlog = (s.stream i).backlog) (hg : (t.stream i).generation = (s.stream i).generation)
    (hr : (t.stream i).ring = (s.stream i).ring) (hm : (t.stream i).map = (s.stream i).map) (hi : t.inFlight = s.inFlight)
    (hw : ((t.stream i).queue.flatMap fun h => (t.desc h).waitingAt h) =
      (s.stream i).queue.flatMap fun h => (s.desc h).waitingAt h) : t.CaptureFlow i := by
  have live := liveMove_congr hi i
  refine ⟨?_, hr.trans hs.ring, fun m h => ?_, ?_, ?_⟩
  · rw [State.heldCount, hb, heldInFlight_congr hi hg]; exact hs.held
  · rw [live] at h; rw [hg]; exact hs.move m h
  · rw [live, hb, hw]; exact hs.order
  · rw [hb, Stream.channels, hm]; exact hs.samples

theorem headFrame_congr {s t : State} {i : StreamNo} (hq : (t.stream i).queue = (s.stream i).queue)
    (hd : ∀ h ∈ (s.stream i).queue, (t.desc h).nextFrame = (s.desc h).nextFrame) : t.headFrame i = s.headFrame i := by
  rw [headFrame_eq, headFrame_eq, hq]
  cases h : (s.stream i).queue with
  | nil => rfl
  | cons x q => simp only [List.head?_cons, Option.bind_some, hd x (by simp [h])]

/-! ### START and STOP with mode DRAIN -/

/-- A stream that starts to move, or goes on moving, with its queue as it was (R10, R11). -/
theorem State.StreamLoose.setState {n : FrameNo} {s t : State} {i : StreamNo} {st : StreamState} {a b : Bool} (hs : s.StreamLoose n i)
    (hst : t.stream i = { s.stream i with state := st, sounding := a, gapOpen := b }) (hd : ∀ h, t.desc h = s.desc h)
    (hi : t.inFlight = s.inFlight) (hm : st = .running ∨ st = .stopping) (he : st = .stopping → (s.stream i).queue ≠ []) :
    t.StreamLoose n i := by
  have moving : (t.stream i).moving = true := by
    rw [hst]
    rcases hm with rfl | rfl <;> rfl
  have notClosed : (t.stream i).state ≠ .closed := by
    rw [hst]
    rcases hm with rfl | rfl <;> simp
  have queue : t.QueueLoose i := by
    refine ⟨by rw [hst]; exact hs.queue.depth, fun h hh => ?_, ?_, (fun e => by rw [moving] at e; cases e), fun e => ?_,
      fun e => absurd e notClosed⟩
    · rw [hst] at hh ⊢
      rw [hd]
      exact hs.queue.own h hh
    · rw [hst]
      exact List.map_congr_left (f := s.desc) (fun h _ => (hd h).symm) ▸ hs.queue.order
    · rw [hst] at e ⊢
      exact he e
  refine ⟨queue, fun e => ?_, fun e => ?_⟩
  · have flow := hs.play (by rw [hst] at e; exact e)
    exact flow.keep (by rw [hst]) (by rw [hst]) (by rw [hst]) (fun e => absurd e notClosed) (liveMove_congr hi i)
      (headFrame_congr (by rw [hst]) fun h _ => by rw [hd]) fun h f _ => by rw [hd]
  · have flow := hs.capture (by rw [hst] at e; exact e)
    exact flow.keep (by rw [hst]) (by rw [hst]) (by rw [hst]) (by rw [hst]) hi (by simp only [hst, hd])

/-- A change of one stream's context leaves the others. -/
theorem sameStream_modStream {s : State} {i j : StreamNo} (f : Stream → Stream) (h : j ≠ i) : SameStream j s (s.modStream i f) :=
  SameStream.of_stream (State.stream_modStream_ne s f h) (fun _ _ => rfl) rfl
    fun e => heldInFlight_congr (s := s) (t := s.modStream i f) rfl (by rw [State.stream_modStream_ne s f h]) ▸ e

theorem sameStream_raiseOnce (j : StreamNo) (s : State) (c : Claim) : SameStream j s (s.raiseOnce c) :=
  SameStream.of_stream (by simp) (by simp) (liveMove_congr (s.raiseOnce_inFlight c) j)
    fun h => heldInFlight_congr (s.raiseOnce_inFlight c) (by simp) ▸ h

theorem startStream_parts {s : State} {i : StreamNo} (hs : s.PartsOk s.clock) : (s.startStream i).PartsOk s.clock := by
  have core : CoreFrame s (s.modStream i Stream.started) := CoreFrame.modStream s i _ rfl
  have clock : (s.modStream i Stream.started).clock i = s.clock i := by
    simp only [State.clock, State.stream_modStream_same, State.modStream_domain]
    rfl
  rw [State.startStream_eq]
  refine hs.settleAt (fun _ => clock) (core.keeps hs.core) ?_ fun j e => sameStream_modStream _ e
  exact State.StreamLoose.setState (hs.streams i).loose (State.stream_modStream_same s i _) (fun _ => rfl) rfl (.inl rfl)
    fun e => by cases e

/-- With an empty queue there is no live move (R68, R77). -/
theorem State.StreamLoose.no_liveMove {n : FrameNo} {s : State} {i : StreamNo} (hs : s.StreamLoose n i)
    (hq : (s.stream i).queue = []) : s.liveMove i = none := by
  cases hd : (s.stream i).direction with
  | play => exact (hs.play hd).no_move (by rw [headFrame_eq, hq]; rfl)
  | capture =>
    have order := (hs.capture hd).order
    rw [hq, List.flatMap_nil, List.append_eq_nil_iff, List.map_eq_nil_iff] at order
    cases hm : s.liveMove i with
    | none => rfl
    | some m => rw [hm] at order; cases order.1

theorem State.StreamLoose.no_backlog {n : FrameNo} {s : State} {i : StreamNo} (hs : s.StreamLoose n i)
    (hq : ∀ h ∈ (s.stream i).queue, (s.desc h).eligible = false) : (s.stream i).backlog = [] := by
  cases hd : (s.stream i).direction with
  | play => exact (hs.play hd).silent
  | capture =>
    have order := (hs.capture hd).order
    rw [List.flatMap_eq_nil_iff.mpr fun h hh => waitingAt_of_not_eligible (hq h hh) h, List.append_eq_nil_iff,
      List.map_eq_nil_iff, List.map_eq_nil_iff] at order
    exact order.2

theorem State.StreamLoose.ring {n : FrameNo} {s : State} {i : StreamNo} (hs : s.StreamLoose n i) :
    (s.stream i).ring.length ≤ 4 ∧ ((s.stream i).direction = .capture ∨ (s.stream i).state = .closed → (s.stream i).ring = []) := by
  cases hd : (s.stream i).direction with
  | play => exact ⟨(hs.play hd).four, fun e => (hs.play hd).closed (e.resolve_left (by decide))⟩
  | capture =>
    have := (hs.capture hd).ring
    exact ⟨by rw [this]; exact Nat.zero_le 4, fun _ => this⟩

/-- A stream with nothing queued, received or in flight. -/
theorem streamOk_of_empty {n : FrameNo} {t : State} {i : StreamNo} (hq : (t.stream i).queue = []) (hst : (t.stream i).state ≠ .stopping)
    (hb : (t.stream i).backlog = []) (hl : t.liveMove i = none) (hr : (t.stream i).ring.length ≤ 4)
    (hr' : (t.stream i).direction = .capture ∨ (t.stream i).state = .closed → (t.stream i).ring = []) : t.StreamOk n i := by
  have none : ∀ m, m ∉ t.liveMove i := fun m hm => by rw [hl] at hm; cases hm
  have head : t.headFrame i = Option.none := by rw [headFrame_eq, hq]; rfl
  refine ⟨⟨⟨?_, ?_, ?_, ?_, fun e => absurd e hst, fun _ => hq⟩, fun _ => ?_, fun hd => ?_⟩, rests_of_empty hq⟩
  · rw [hq]; exact Nat.zero_le _
  · simp [hq]
  · simp [hq]
  · simp [hq]
  · exact ⟨hb, fun m hm => absurd hm (none m), hr, fun h f e => (by rw [head] at e; cases e), fun e => hr' (.inr e)⟩
  · refine ⟨?_, hr' (.inl hd), fun m hm => absurd hm (none m), by simp [hl, hb, hq], by simp [hb]⟩
    have := Bool.toNat_le (t.heldInFlight i)
    rw [State.heldCount, hb, List.countP_nil]
    omega

theorem drain_parts {s : State} {i : StreamNo} (hs : s.PartsOk s.clock) : (s.drain i).PartsOk s.clock := by
  have loose := (hs.streams i).loose
  by_cases hr : (s.stream i).state = .running
  · by_cases hq : (s.stream i).queue = []
    · rw [drain_running_empty hr hq]
      refine hs.step (i := i) (((CoreFrame.modStream s i _ rfl).trans (CoreFrame.raiseOnce _ rfl)).keeps hs.core)
        (streamOk_of_empty ?_ ?_ ?_ ?_ ?_ fun e => ?_) fun j e =>
          (sameStream_modStream _ e).trans (sameStream_raiseOnce j _ _)
      · simp [hq]
      · simp
      · simpa using loose.no_backlog (by simp [hq])
      · rw [liveMove_congr (s := s) (by simp), loose.no_liveMove hq]
      · simpa using loose.ring.1
      · simp at e ⊢
        exact loose.ring.2 (.inl e)
    · rw [drain_running_queued hr hq]
      refine hs.step (i := i) ((CoreFrame.modStream s i (fun st => { st with state := .stopping }) rfl).keeps hs.core) ⟨?_, ?_⟩ fun j e => sameStream_modStream _ e
      · exact State.StreamLoose.setState loose (State.stream_modStream_same s i _) (fun _ => rfl) rfl (.inr rfl) fun _ => hq
      · have stream : (s.modStream i fun st => { st with state := .stopping }).stream i = { s.stream i with state := .stopping } :=
          State.stream_modStream_same s i _
        obtain ⟨hspent, hnext⟩ := (hs.streams i).rests
        refine ⟨by rw [stream]; exact hspent, ?_⟩
        rw [State.nextEligible, if_pos (by rw [stream]; rfl), stream]
        rw [State.nextEligible, if_pos (by rw [Stream.moving, hr]; rfl)] at hnext
        simp only [readyCapture_congr (s := s) none fun _ _ => State.modStream_desc s i _ _,
          readyPlay_congr (s := s) fun _ _ => State.modStream_desc s i _ _]
        exact hnext
  · have rest : s.drain i = s := by
      unfold State.drain
      split
      · next e => exact absurd e hr
      all_goals rfl
    rw [rest]; exact hs

/-! ### ABORT, CLOSE and OPEN -/

theorem retireAll_core {i : StreamNo} {o : Descriptor → DoneOutcome} {q : List Handle} {s : State} (hs : s.CoreOk)
    (hq : (s.stream i).queue = q) (ho : ∀ h ∈ q, ((s.desc h).retire (o (s.desc h))).emptied.Ok) :
    (State.retireAll i o q s).CoreOk := by
  induction q generalizing s with
  | nil => exact hs
  | cons h q ih =>
    obtain ⟨hout, -⟩ := List.nodup_cons.mp (hq ▸ hs.places.once i)
    have tail : ((s.retire i h (o (s.desc h))).stream i).queue = q := by
      rw [retire_stream, if_pos rfl, hq, List.erase_cons_head]
    refine ih (hs.retire (by simp [hq]) (ho h (by simp))) tail fun x hx => ?_
    rw [retire_desc, if_neg fun e : x = h => hout (e ▸ hx)]
    exact ho x (List.mem_cons_of_mem _ hx)

theorem liveMove_voidStream (s : State) (i : StreamNo) : (s.voidStream i).liveMove i = none := by
  rw [State.liveMove, State.voidStream, State.voidIf_inFlight]
  cases s.inFlight with
  | none => rfl
  | some m =>
    simp only [Option.map_some, Option.bind_some]
    refine if_neg fun ⟨hm, hv⟩ => ?_
    simp [hm] at hv

theorem voidStream_core (s : State) (i : StreamNo) : CoreFrame s (s.voidStream i) :=
  { CoreFrame.refl s with
    kinds := fun m hm => by
      obtain ⟨m', hm', rfl⟩ : ∃ m', s.inFlight = some m' ∧ { m' with void := m'.void || decide (m'.stream = i) } = m := by
        simpa [State.voidStream] using hm
      exact ⟨m', hm', rfl, rfl⟩ }

theorem voidStream_same (s : State) {i j : StreamNo} (h : j ≠ i) : SameStream j s (s.voidStream i) :=
  SameStream.of_stream rfl (fun _ _ => rfl)
    (liveMove_voided (p := fun m => decide (m.stream = i)) rfl fun _ hm e => h (e.symm.trans (of_decide_eq_true hm)))
    fun e => heldInFlight_voided (s := s) (t := s.voidStream i) (p := fun m => decide (m.stream = i)) rfl rfl ▸ e

theorem abort_parts {s : State} {i : StreamNo} (hs : s.PartsOk s.clock) : (s.abort i).PartsOk s.clock := by
  have before : CoreFrame s (s.beforeAbort i) := (voidStream_core s i).trans (CoreFrame.modStream _ i _ rfl)
  have core := before.keeps hs.core
  have queue : ((s.beforeAbort i).stream i).queue = (s.stream i).queue := by rw [beforeAbort_stream]
  have retired := retireAll_retired i Descriptor.abortOutcome (s.stream i).queue (s.beforeAbort i) queue (hs.core.places.once i)
  have frame := retireAll_frame i Descriptor.abortOutcome (s.stream i).queue (s.beforeAbort i) queue
  have coreRetired := retireAll_core (o := Descriptor.abortOutcome) core queue fun h hh => by
    rw [before.descs]
    exact (hs.core.descs h).retireAbort ((hs.core.places.queued h i).mp hh).1
  rw [State.abort_eq]
  generalize State.retireAll i Descriptor.abortOutcome (s.stream i).queue (s.beforeAbort i) = w at retired frame coreRetired
  have stream : w.stream i = { s.stream i with queue := [], backlog := [] } := by
    rw [retired.stream, beforeAbort_stream]
  refine hs.step (i := i) ((CoreFrame.modStream w i _ rfl).keeps coreRetired) (streamOk_of_empty ?_ ?_ ?_ ?_ ?_ fun e => ?_) fun j e => ?_
  · simp [stream]
  · simp
  · simp [stream]
  · exact (liveMove_congr (s := s.voidStream i) frame.inFlight i).trans (liveMove_voidStream s i)
  · simpa [stream] using (hs.streams i).loose.ring.1
  · simp [stream] at e ⊢
    exact (hs.streams i).loose.ring.2 (.inl e)
  · exact (((voidStream_same s e).trans (sameStream_modStream _ e)).trans (frame.sameStream core.places e)).trans
      (sameStream_modStream _ e)

theorem detach_core (s : State) (i : StreamNo) : CoreFrame s (s.detach i) :=
  { CoreFrame.refl s with
    claims := by
      simp only [State.detach]
      induction s.claims with
      | nil => rfl
      | cons c cs ih =>
        by_cases e : c = .streamEvent i
        · rw [List.map_cons, if_pos e, e, List.filter_cons_of_neg (by simp [Claim.accounts]),
            List.filter_cons_of_neg (by simp [Claim.accounts]), ih]
        · rw [List.map_cons, if_neg e]
          cases h : c.accounts
          · rw [List.filter_cons_of_neg (by simp [h]), List.filter_cons_of_neg (by simp [h]), ih]
          · rw [List.filter_cons_of_pos h, List.filter_cons_of_pos h, ih] }

/-- A change of the ownership entries is no change for the pools. -/
theorem setOwners_same (s : State) (o : Owners) : CoreFrame s { s with owners := o } ∧ ∀ j, SameStream j s { s with owners := o } :=
  ⟨⟨fun _ => rfl, fun _ => rfl, rfl, fun _ => rfl, fun m hm => ⟨m, hm, rfl, rfl⟩⟩,
    fun _ => SameStream.of_stream rfl (fun _ _ => rfl) rfl id⟩

/-- The context that CLOSE leaves (R16). -/
def Stream.shut (st : Stream) : Stream := { st with state := .closed, ring := [], record := StreamRecord.empty }

theorem closeStream_parts {s : State} {i : StreamNo} (hs : s.PartsOk s.clock) (hi : (s.stream i).state = .idle) :
    (s.closeStream i).PartsOk s.clock := by
  have loose := (hs.streams i).loose
  have resting : ∀ h ∈ (s.stream i).queue, (s.desc h).eligible = false :=
    loose.queue.resting (by simp [Stream.moving, hi])
  have core := (voidStream_core s i).keeps hs.core
  have queue : ((s.voidStream i).stream i).queue = (s.stream i).queue := rfl
  have retired := retireAll_retired i (fun _ => .discarded) (s.stream i).queue (s.voidStream i) queue (hs.core.places.once i)
  have frame := retireAll_frame i (fun _ => .discarded) (s.stream i).queue (s.voidStream i) queue
  have coreRetired := retireAll_core (o := fun _ => .discarded) core queue fun h hh =>
    (hs.core.descs h).retireDiscarded ((hs.core.places.queued h i).mp hh).1 (resting h hh)
  rw [closeStream_eq, State.beforeClose]
  generalize State.retireAll i (fun _ => .discarded) (s.stream i).queue (s.voidStream i) = w at retired frame coreRetired
  have stream : w.stream i = { s.stream i with queue := [] } := retired.stream
  have coreDetached := (detach_core w i).keeps coreRetired
  obtain ⟨ownersCore, ownersSame⟩ := setOwners_same ((w.detach i).modStream i Stream.shut) ((w.detach i).owners.release i)
  refine State.PartsOk.same (hs.step (i := i) (t := (w.detach i).modStream i Stream.shut)
    ((CoreFrame.modStream _ i _ rfl).keeps coreDetached) (streamOk_of_empty ?_ ?_ ?_ ?_ ?_ fun e => ?_) fun j e => ?_)
    ownersCore ownersSame
  · rw [State.stream_modStream_same]; exact congrArg Stream.queue stream
  · rw [State.stream_modStream_same]; exact fun e => by cases e
  · rw [State.stream_modStream_same]
    exact (congrArg Stream.backlog stream).trans (loose.no_backlog resting)
  · exact (liveMove_congr (s := s.voidStream i) frame.inFlight i).trans (liveMove_voidStream s i)
  · rw [State.stream_modStream_same]; exact Nat.zero_le 4
  · rw [State.stream_modStream_same]; rfl
  · have detached : SameStream j w (w.detach i) := SameStream.of_stream rfl (fun _ _ => rfl) rfl id
    exact (((voidStream_same s e).trans (frame.sameStream core.places e)).trans detached).trans (sameStream_modStream _ e)

theorem openStream_parts {s : State} {i : StreamNo} (o : Opening) (clock : FrameNo) (hs : s.PartsOk s.clock)
    (hi : (s.stream i).state = .closed) : (s.openStream i o).PartsOk fun j => if j = i then clock else s.clock j := by
  have loose := (hs.streams i).loose
  have empty := loose.queue.closed hi
  obtain ⟨ownersCore, ownersSame⟩ := setOwners_same (s.modStream i fun st => st.opened o (s.mapDomain o.map))
    (s.owners.take i o.direction o.overlay o.map)
  have same : ∀ j, j ≠ i → s.StreamOk (if j = i then clock else s.clock j) j := fun j e => by
    rw [if_neg e]; exact hs.streams j
  have core : (s.modStream i fun st => st.opened o (s.mapDomain o.map)).CoreOk :=
    (CoreFrame.modStream s i _ (by rw [empty]; rfl)).keeps hs.core
  refine State.PartsOk.same ⟨core, fun j => ?_⟩ ownersCore ownersSame
  by_cases e : j = i
  · subst e
    refine streamOk_of_empty ?_ ?_ ?_ ?_ ?_ fun _ => ?_
    · rw [State.stream_modStream_same]; rfl
    · rw [State.stream_modStream_same]; exact fun e => by cases e
    · rw [State.stream_modStream_same]; rfl
    · exact (liveMove_congr (s := s) rfl j).trans (loose.no_liveMove empty)
    · rw [State.stream_modStream_same]; exact Nat.zero_le 4
    · rw [State.stream_modStream_same]; rfl
  · exact (sameStream_modStream _ e).streamOk (same j e)

end Sys2Proof.Machine

/-! ## The pools: SUBMIT and PUT -/

namespace Sys2Proof.Machine

/-! ### SUBMIT -/

/-- What a SUBMIT that passes has found (R28). -/
structure State.SubmitPasses (s : State) (p : List Byte) (i : StreamNo) (h : Handle) (a : Start) : Prop where
  state : (s.stream i).state = .idle ∨ (s.stream i).state = .running
  frames : 1 ≤ submitFrames p ∧ submitFrames p ≤ 8192
  bytes : submitBytes p (s.stream i) ≤ 32768
  tail : (s.stream i).direction = .capture ∨ s.newestLoading i = false
  depth : (s.stream i).queue.length < (s.stream i).depth
  free : s.lowestFree = some h
  start : startOf (byteAt p 6) (field4 p 7) = some a
  pages : pagesFor (submitBytes p (s.stream i)) ≤ s.freeList.length

theorem checkSubmit_ok {s : State} {p : List Byte} {i : StreamNo} {h : Handle} {a : Start}
    (e : s.checkSubmit p = .ok (i, h, a)) : s.SubmitPasses p i h a := by
  unfold State.checkSubmit at e
  dsimp only at e
  split at e
  · cases e
  · next j hj =>
    split at e
    · next h' a' hh ha =>
      cases e
      obtain ⟨-, hst, hf⟩ := State.checkStream_ok.mp hj
      have checks := firstFailure_eq_none.mp hf
      simp only [List.forall_mem_cons, Bool.and_eq_true, Bool.or_eq_true, Bool.not_eq_true', decide_eq_true_eq] at checks hst
      obtain ⟨-, ⟨⟨hframes, -⟩, hbytes⟩, htail, hdepth, -, hpages, -⟩ := checks
      exact ⟨hst, hframes, hbytes, htail, hdepth, hh, ha, hpages⟩
    · cases e

theorem lowestFree_free {s : State} {h : Handle} (e : s.lowestFree = some h) : (s.desc h).state = .free :=
  of_decide_eq_true (List.find?_some (p := fun h => decide ((s.desc h).state = .free)) e)

/-- The state in which SUBMIT has recorded the descriptor and lent its pages, before the test of R32. -/
def State.lend (s : State) (p : List Byte) (i : StreamNo) (h : Handle) (a : Start) : State :=
  { (s.modDesc h fun _ => submitted i (s.stream i) p a (s.freeList.take (pagesFor (submitBytes p (s.stream i))))).modStream i
      fun st => { st with queue := st.queue ++ [h] } with
    freeList := s.freeList.drop (pagesFor (submitBytes p (s.stream i))) }

theorem State.submit_eq (s : State) (p : List Byte) (i : StreamNo) (h : Handle) (a : Start) :
    s.submit p i h a = (s.lend p i h a).settle i := rfl

theorem submitted_frameSize {i : StreamNo} {st : Stream} {p : List Byte} {a : Start} {ps : List PageNo} (hf : 1 ≤ submitFrames p) :
    (submitted i st p a ps).frameSize = st.frameSize :=
  Nat.mul_div_cancel_left st.frameSize hf

theorem submitted_state (i : StreamNo) (st : Stream) (p : List Byte) (a : Start) (ps : List PageNo) :
    (submitted i st p a ps).state = .loading ∧ st.direction = .play ∨
      (submitted i st p a ps).state = .ready ∧ st.direction = .capture := by
  cases hd : st.direction <;> simp [submitted, hd]

theorem submitted_live (i : StreamNo) (st : Stream) (p : List Byte) (a : Start) (ps : List PageNo) :
    (submitted i st p a ps).state.live = true ∧ (submitted i st p a ps).eligible = false := by
  rcases submitted_state i st p a ps with ⟨e, -⟩ | ⟨e, -⟩ <;> simp [e, DescState.live, Descriptor.eligible]

theorem submitted_ok {i : StreamNo} {st : Stream} {p : List Byte} {a : Start} {ps : List PageNo}
    (hf : 1 ≤ submitFrames p ∧ submitFrames p ≤ 8192) (hb : submitBytes p st ≤ 32768) (hs : 1 ≤ st.frameSize)
    (hp : ps.length = pagesFor (submitBytes p st)) : (submitted i st p a ps).Ok := by
  have bytes : 1 ≤ submitBytes p st := Nat.mul_pos hf.1 hs
  have state := submitted_state i st p a ps
  have notEligible := (submitted_live i st p a ps).2
  have sized : (submitted i st p a ps).Sized :=
    ⟨hf, by rw [submitted_frameSize hf.1]; rfl, ⟨bytes, hb⟩, hp⟩
  exact
    { blank := fun e => by rcases state with ⟨e', -⟩ | ⟨e', -⟩ <;> rw [e'] at e <;> cases e
      size := fun _ => ⟨hf.1, hf.2, sized.bytes, bytes, hb, hp⟩
      side := ⟨fun _ => ⟨rfl, rfl⟩, fun _ => ⟨rfl, rfl, rfl⟩⟩
      live := fun _ => ⟨rfl, rfl, Nat.zero_le _, rfl, rfl⟩
      retired := fun e => by rcases state with ⟨e', -⟩ | ⟨e', -⟩ <;> rw [e'] at e <;> cases e
      fresh := fun _ => ⟨rfl, rfl, rfl, rfl, rfl⟩
      loading := fun e => by
        rcases state with ⟨-, hd⟩ | ⟨e', -⟩
        · exact ⟨hd, bytes⟩
        · rw [e'] at e; cases e
      loaded := fun _ hn hd => by
        rcases state with ⟨e', -⟩ | ⟨-, hd'⟩
        · exact absurd e' hn
        · exact absurd (hd'.symm.trans hd) (by decide)
      eligible := fun e => by rw [notEligible] at e; cases e
      play := fun _ _ => sized.doneEntries_zero.symm
      capture := fun _ _ => ⟨Nat.le_refl _, Nat.zero_le _, (Nat.zero_div 512).symm, .inl (Nat.zero_mul _).symm⟩ }

section
variable {s : State} {p : List Byte} {i : StreamNo} {h : Handle} {a : Start}

theorem lend_desc_same : (s.lend p i h a).desc h =
    submitted i (s.stream i) p a (s.freeList.take (pagesFor (submitBytes p (s.stream i)))) :=
  State.desc_modDesc_same s h fun _ => submitted i (s.stream i) p a (s.freeList.take (pagesFor (submitBytes p (s.stream i))))

theorem lend_desc_ne {x : Handle} (hx : x ≠ h) : (s.lend p i h a).desc x = s.desc x :=
  State.desc_modDesc_ne s (fun _ => submitted i (s.stream i) p a (s.freeList.take (pagesFor (submitBytes p (s.stream i))))) hx

theorem lend_stream : (s.lend p i h a).stream i = { s.stream i with queue := (s.stream i).queue ++ [h] } :=
  State.stream_modStream_same s i fun st => { st with queue := st.queue ++ [h] }

theorem lend_stream_ne {j : StreamNo} (hj : j ≠ i) : (s.lend p i h a).stream j = s.stream j :=
  State.stream_modStream_ne s (fun st => { st with queue := st.queue ++ [h] }) hj

/-- A FREE descriptor stands in no queue and has no DONE claim (R26). -/
theorem State.PlacesOk.free {s : State} (hs : s.PlacesOk) {h : Handle} (hf : (s.desc h).state = .free) :
    (∀ j, h ∉ (s.stream j).queue) ∧ Claim.done h ∉ s.claims := by
  refine ⟨fun j hj => ?_, fun hc => ?_⟩
  · have := ((hs.queued h j).mp hj).1
    rw [hf] at this
    cases this
  · rw [(hs.retired h).mp hc] at hf
    cases hf

theorem lend_places (hs : s.PlacesOk) (hf : (s.desc h).state = .free) : (s.lend p i h a).PlacesOk := by
  obtain ⟨nowhere, notDone⟩ := hs.free hf
  obtain ⟨live, -⟩ := submitted_live i (s.stream i) p a (s.freeList.take (pagesFor (submitBytes p (s.stream i))))
  have claims : (s.lend p i h a).claims = s.claims := rfl
  refine ⟨fun x j => ?_, fun j => ?_, fun x => ?_, fun x => by rw [claims]; exact hs.doneOnce x⟩
  · by_cases e : x = h
    · subst e
      rw [lend_desc_same, live]
      by_cases ej : j = i
      · subst ej
        rw [lend_stream]
        exact ⟨fun _ => ⟨rfl, rfl⟩, fun _ => List.mem_append_right _ (List.mem_singleton.mpr rfl)⟩
      · rw [lend_stream_ne ej]
        exact ⟨fun hm => absurd hm (nowhere j), fun hm => absurd hm.2.symm ej⟩
    · rw [lend_desc_ne e, ← hs.queued x j]
      by_cases ej : j = i
      · subst ej
        rw [lend_stream]
        simp [e]
      · rw [lend_stream_ne ej]
  · by_cases ej : j = i
    · subst ej
      rw [lend_stream]
      exact List.nodup_append.mpr ⟨hs.once j, List.nodup_singleton h, fun x hx y hy e =>
        nowhere j (List.mem_singleton.mp hy ▸ e ▸ hx)⟩
    · rw [lend_stream_ne ej]; exact hs.once j
  · rw [claims]
    by_cases e : x = h
    · subst e
      rw [lend_desc_same]
      refine ⟨fun hm => absurd hm notDone, fun hm => ?_⟩
      rw [hm] at live
      cases live
    · rw [lend_desc_ne e]; exact hs.retired x

theorem lend_core (hs : s.CoreOk) (hp : s.SubmitPasses p i h a) (hfs : 1 ≤ (s.stream i).frameSize) : (s.lend p i h a).CoreOk := by
  have free := lowestFree_free hp.free
  refine ⟨lend_places hs.places free, fun x => ?_, ?_, ⟨hs.data.order, hs.data.count⟩, hs.kinds⟩
  · by_cases e : x = h
    · subst e
      rw [lend_desc_same]
      exact submitted_ok hp.frames hp.bytes hfs (List.length_take_of_le hp.pages)
    · rw [lend_desc_ne e]; exact hs.descs x
  · refine State.PagesOk.change (h := h) hs.pages (fun x e => lend_desc_ne e) fun q => ?_
    have blank : (s.desc h).heldPages = [] := by rw [(hs.descs h).blank free]; rfl
    have taken := congrArg (List.count q) (List.take_append_drop (pagesFor (submitBytes p (s.stream i))) s.freeList)
    rw [List.count_append] at taken
    rw [lend_desc_same, blank, ← taken]
    change (s.freeList.take (pagesFor (submitBytes p (s.stream i)))).count q +
      (s.freeList.drop (pagesFor (submitBytes p (s.stream i)))).count q + s.claimPages.count q + s.entryPages.count q = _
    simp only [List.count_nil]
    omega

/-- The newest descriptor of a queue that SUBMIT may lengthen is not LOADING (R28 step 5). -/
theorem lend_tail (hs : s.CoreOk) (hq : s.QueueLoose i) (ht : (s.stream i).direction = .capture ∨ s.newestLoading i = false)
    {x : Handle} (hx : x ∈ (s.stream i).queue.getLast?) : (s.desc x).state ≠ .loading := by
  intro e
  rcases ht with hd | hn
  · have := ((hs.descs x).loading e).1
    rw [(hq.own x (List.mem_of_getLast? hx)).2.1, hd] at this
    cases this
  · rw [State.newestLoading, Option.mem_def.mp hx] at hn
    exact absurd e (of_decide_eq_false hn)

theorem lend_queueLoose (hs : s.CoreOk) (hq : s.QueueLoose i) (hp : s.SubmitPasses p i h a) : (s.lend p i h a).QueueLoose i := by
  have free := lowestFree_free hp.free
  have nowhere := (hs.places.free free).1
  obtain ⟨live, notEligible⟩ := submitted_live i (s.stream i) p a (s.freeList.take (pagesFor (submitBytes p (s.stream i))))
  have old : ∀ x ∈ (s.stream i).queue, (s.lend p i h a).desc x = s.desc x := fun x hx =>
    lend_desc_ne fun e => nowhere i (e ▸ hx)
  have members : ∀ x, x ∈ ((s.lend p i h a).stream i).queue → x ∈ (s.stream i).queue ∨ x = h := fun x hx => by
    rw [lend_stream] at hx
    simpa using hx
  refine ⟨?_, fun x hx => ?_, ?_, fun hm x hx => ?_, fun e => ?_, fun e => ?_⟩
  · rw [lend_stream, List.length_append]
    exact hp.depth
  · have hx := members x hx
    rw [lend_stream]
    rcases hx with hx | rfl
    · rw [old x hx]; exact hq.own x hx
    · rw [lend_desc_same]
      exact ⟨rfl, rfl, submitted_frameSize hp.frames.1⟩
  · rw [lend_stream, List.map_append, List.map_congr_left old, List.map_cons, List.map_nil, lend_desc_same]
    refine List.isChain_append.mpr ⟨hq.order, .singleton _, fun d hd d' hd' => ?_⟩
    obtain ⟨x, hx, rfl⟩ : ∃ x, x ∈ (s.stream i).queue.getLast? ∧ s.desc x = d := by
      rw [List.getLast?_map] at hd
      exact Option.map_eq_some_iff.mp hd
    obtain rfl : submitted i (s.stream i) p a (s.freeList.take (pagesFor (submitBytes p (s.stream i)))) = d' := by simpa using hd'
    have inQueue := List.mem_of_getLast? hx
    have notLoading := lend_tail hs hq hp.tail hx
    have xlive := ((hs.places.queued x i).mp inQueue).1
    have stage : (s.desc x).stage ≤ 1 := by
      unfold Descriptor.stage
      split
      · exact Nat.le_refl 1
      · next e => exact absurd e notLoading
      · exact Nat.zero_le 1
    refine ⟨Nat.le_trans stage ?_, by omega, fun e => by rw [notEligible] at e; cases e⟩
    rcases submitted_state i (s.stream i) p a (s.freeList.take (pagesFor (submitBytes p (s.stream i)))) with ⟨e, -⟩ | ⟨e, -⟩ <;>
      simp [Descriptor.stage, e]
  · rcases members x hx with hx | rfl
    · rw [old x hx]
      refine hq.resting ?_ x hx
      rw [lend_stream] at hm
      exact hm
    · rw [lend_desc_same]; exact notEligible
  · rw [lend_stream]; simp
  · rw [lend_stream] at e
    rcases hp.state with e' | e' <;> exact absurd (e'.symm.trans e) (by decide)

theorem lend_loose {n : FrameNo} (hs : s.CoreOk) (hl : s.StreamLoose n i) (hp : s.SubmitPasses p i h a) :
    (s.lend p i h a).StreamLoose n i := by
  have nowhere := (hs.places.free (lowestFree_free hp.free)).1
  obtain ⟨-, notEligible⟩ := submitted_live i (s.stream i) p a (s.freeList.take (pagesFor (submitBytes p (s.stream i))))
  have old : ∀ x ∈ (s.stream i).queue, (s.lend p i h a).desc x = s.desc x := fun x hx =>
    lend_desc_ne fun e => nowhere i (e ▸ hx)
  refine ⟨lend_queueLoose hs hl.queue hp, fun hd => ?_, fun hd => ?_⟩
  · have flow := hl.play (by rw [lend_stream] at hd; exact hd)
    have head : (s.lend p i h a).headFrame i = s.headFrame i := by
      rw [headFrame_eq, headFrame_eq, lend_stream]
      cases hq : (s.stream i).queue with
      | nil =>
        rw [List.nil_append, List.head?_cons, Option.bind_some, lend_desc_same, nextFrame_of_not_eligible notEligible]
        rfl
      | cons x q => rw [List.cons_append, List.head?_cons, List.head?_cons, Option.bind_some, Option.bind_some, old x (by simp [hq])]
    refine flow.keep (by rw [lend_stream]) (by rw [lend_stream]) (by rw [lend_stream]) (fun e => ?_)
      (liveMove_congr (s := s) rfl i) head fun x f e => ?_
    · rw [lend_stream] at e; exact e
    · obtain ⟨⟨q, hq⟩, -⟩ := headFrame_some e
      rw [old x (by simp [hq])]
  · have flow := hl.capture (by rw [lend_stream] at hd; exact hd)
    refine flow.keep (by rw [lend_stream]) (by rw [lend_stream]) (by rw [lend_stream]) (by rw [lend_stream]) rfl ?_
    rw [lend_stream, List.flatMap_append, List.flatMap_cons, List.flatMap_nil, List.append_nil, lend_desc_same,
      waitingAt_of_not_eligible notEligible, List.append_nil]
    exact List.flatMap_congr fun x hx => by rw [old x hx]

theorem submit_parts (hs : s.PartsOk s.clock) (hp : s.SubmitPasses p i h a) (hfs : 1 ≤ (s.stream i).frameSize) :
    (s.submit p i h a).PartsOk s.clock := by
  have nowhere := (hs.core.places.free (lowestFree_free hp.free)).1
  have clock : ((s.lend p i h a).domain ((s.lend p i h a).stream i).domain).counter = s.clock i := by
    rw [lend_stream]
    change ((s.lend p i h a).domain (s.stream i).domain).counter = _
    cases hd : (s.stream i).domain <;> simp only [State.clock, hd] <;> rfl
  rw [State.submit_eq]
  refine hs.settleAt (fun _ => clock) (lend_core hs.core hp hfs) (lend_loose hs.core (hs.streams i).loose hp) fun j e => ?_
  exact SameStream.of_stream (lend_stream_ne e) (fun x hx => lend_desc_ne fun ex => nowhere j (ex ▸ hx))
    (liveMove_congr (s := s) rfl j) fun hh => heldInFlight_congr (s := s) (t := s.lend p i h a) rfl (by rw [lend_stream_ne e]) ▸ hh

end

/-- A frame of an open stream takes 2 to 64 bytes (R6, R7). -/
theorem State.OwnersOk.frameSize {s : State} (h : s.OwnersOk) {i : StreamNo} (ho : (s.stream i).isOpen = true) :
    1 ≤ (s.stream i).frameSize ∧ (s.stream i).frameSize ≤ 64 := by
  have fits := h.fits i ho
  obtain ⟨h1, h16, -⟩ := fits.map
  have width : 2 ≤ (s.stream i).width ∧ (s.stream i).width ≤ 4 := by
    have := fits.width.1
    simp only [List.mem_cons, List.not_mem_nil, or_false] at this
    omega
  constructor
  · exact Nat.mul_pos h1 (by omega)
  · exact Nat.mul_le_mul h16 width.2

/-! ### PUT -/

theorem checkPut_ok {s : State} {p : List Byte} {i : StreamNo} {h : Handle} (e : s.checkPut p = .ok (i, h)) :
    h ∈ (s.stream i).queue ∧ (s.desc h).state = .loading ∧ (s.desc h).loaded + (putData p).length ≤ (s.desc h).bytes := by
  unfold State.checkPut at e
  dsimp only at e
  split at e
  · cases e
  · next j hj =>
    obtain ⟨-, -, hf⟩ := State.checkStream_ok.mp hj
    have checks := firstFailure_eq_none.mp hf
    cases hh : handleOf (byteAt p 2) with
    | none => simp [hh] at e
    | some h' =>
      simp only [hh] at e
      cases e
      simp only [hh, List.forall_mem_cons, State.isLoadingOf, State.fitsLoad, Bool.and_eq_true, decide_eq_true_eq] at checks
      obtain ⟨-, -, ⟨hq, hl⟩, hfit, -⟩ := checks
      exact ⟨hq, hl, hfit⟩

/-- The state in which PUT has stored its bytes, before the test of R32. -/
def State.stored (s : State) (h : Handle) (bs : List Byte) : State :=
  ({ s with mem := writeOffsets (s.desc h) (s.desc h).loaded bs s.mem } : State).modDesc h fun d => d.load bs.length

theorem State.put_eq (s : State) (i : StreamNo) (h : Handle) (bs : List Byte) : s.put i h bs = (s.stored h bs).settle i := rfl

section
variable {s : State} {i : StreamNo} {h : Handle} {bs : List Byte}

theorem stored_desc_same : (s.stored h bs).desc h = (s.desc h).load bs.length := State.desc_modDesc_same _ h _

theorem stored_desc_ne {x : Handle} (hx : x ≠ h) : (s.stored h bs).desc x = s.desc x := State.desc_modDesc_ne _ _ hx

theorem load_state {d : Descriptor} (hl : d.state = .loading) (n : Nat) :
    (d.load n).state = .ready ∨ (d.load n).state = .loading := by
  unfold Descriptor.load
  dsimp only
  split
  · exact .inl rfl
  · exact .inr hl

theorem load_not_eligible {d : Descriptor} (hl : d.state = .loading) (n : Nat) :
    (d.load n).state.live = true ∧ (d.load n).eligible = false := by
  rcases load_state hl n with e | e <;> simp [e, DescState.live, Descriptor.eligible]

theorem stored_core (hs : s.CoreOk) (hl : (s.desc h).state = .loading) (hn : (s.desc h).loaded + bs.length ≤ (s.desc h).bytes) :
    (s.stored h bs).CoreOk :=
  hs.handOver (h := h) (ps := []) (cs := []) (by rw [hl]; rfl) (by rw [stored_desc_same]; exact (load_not_eligible hl _).1)
    (by rw [stored_desc_same]; rfl) (by rw [stored_desc_same]; exact (hs.descs h).load hl hn) (fun _ e => stored_desc_ne e)
    (fun _ => rfl) (List.append_nil _).symm (List.append_nil _).symm rfl (fun m hm => ⟨m, hm, rfl, rfl⟩)
    (by rw [stored_desc_same]; rfl) (by simp)

theorem stored_loose {n : FrameNo} (hs : s.CoreOk) (hq : s.StreamLoose n i) (hi : h ∈ (s.stream i).queue)
    (hl : (s.desc h).state = .loading) : (s.stored h bs).StreamLoose n i := by
  obtain ⟨front, back, hsplit⟩ := List.append_of_mem hi
  have notThere := nodup_split (hsplit ▸ hs.places.once i)
  have notEligible : (s.desc h).eligible = false := by simp [Descriptor.eligible, hl]
  have notEligible' : ((s.stored h bs).desc h).eligible = false := by
    rw [stored_desc_same]; exact (load_not_eligible hl _).2
  have quiet : ∀ x, x = h ∨ (s.stored h bs).desc x = s.desc x := fun x => by
    by_cases e : x = h
    · exact .inl e
    · exact .inr (stored_desc_ne e)
  have loading : (s.desc h).stage = 2 := by simp [Descriptor.stage, hl]
  refine ⟨hq.queue.replace hsplit ⟨_, _, _, rfl⟩ (fun x hx => stored_desc_ne fun e => notThere (e ▸ hx)) ?_
    (fun _ => notEligible') (fun x hx ha => ?_) fun x hx ha => absurd loading ha.loaded, fun hd => ?_, fun hd => ?_⟩
  · rw [stored_desc_same]; exact ⟨rfl, rfl, rfl⟩
  · refine ⟨?_, ha.loaded, fun e => by rw [notEligible'] at e; cases e⟩
    have h1 := ha.stage
    have h2 := ha.loaded
    rw [stored_desc_same]
    rcases load_state hl bs.length with e | e
    · simp only [Descriptor.stage, e] at *
      omega
    · simp only [Descriptor.stage, e, hl] at *
      omega
  · refine (hq.play hd).keep rfl rfl rfl id (liveMove_congr (s := s) rfl i) (headFrame_congr rfl fun x _ => ?_) fun x f _ => ?_
    · rcases quiet x with rfl | e
      · rw [nextFrame_of_not_eligible notEligible, nextFrame_of_not_eligible notEligible']
      · rw [e]
    · rcases quiet x with rfl | e
      · rw [stored_desc_same]; rfl
      · rw [e]
  · refine (hq.capture hd).keep rfl rfl rfl rfl rfl (List.flatMap_congr fun x _ => ?_)
    rcases quiet x with rfl | e
    · rw [waitingAt_of_not_eligible notEligible, waitingAt_of_not_eligible notEligible']
    · rw [e]

theorem put_parts (hs : s.PartsOk s.clock) (hi : h ∈ (s.stream i).queue) (hl : (s.desc h).state = .loading)
    (hn : (s.desc h).loaded + bs.length ≤ (s.desc h).bytes) : (s.put i h bs).PartsOk s.clock := by
  have clock : ((s.stored h bs).domain ((s.stored h bs).stream i).domain).counter = s.clock i := by
    change ((s.stored h bs).domain (s.stream i).domain).counter = _
    cases hd : (s.stream i).domain <;> simp only [State.clock, hd] <;> rfl
  rw [State.put_eq]
  refine hs.settleAt (fun _ => clock) (stored_core hs.core hl hn) (stored_loose hs.core (hs.streams i).loose hi hl) fun j e => ?_
  exact SameStream.of_stream rfl (fun x hx => stored_desc_ne fun ex => hs.core.places.disjoint e hx (ex ▸ hi))
    (liveMove_congr (s := s) rfl j) id

end

end Sys2Proof.Machine

/-! ## The pools: GRANT and COMPLETION -/

namespace Sys2Proof.Machine

/-! ### A queue untouched -/

section
variable {s t : State} {i : StreamNo}

theorem Stream.SameQueue.moving {a b : Stream} (h : a.SameQueue b) : a.moving = b.moving := by
  obtain ⟨r, l, c, rfl⟩ := h
  rfl

theorem State.QueueLoose.congr (hs : s.QueueLoose i) (hc : (t.stream i).SameQueue (s.stream i))
    (hd : ∀ h ∈ (s.stream i).queue, t.desc h = s.desc h) : t.QueueLoose i := by
  have moving := hc.moving
  obtain ⟨r, l, c, hc⟩ := hc
  constructor
  · rw [hc]; exact hs.depth
  · intro h hh
    rw [hc] at hh ⊢
    rw [hd h hh]
    exact hs.own h hh
  · rw [hc]
    exact List.map_congr_left hd ▸ hs.order
  · intro hm h hh
    rw [moving] at hm
    rw [hc] at hh
    rw [hd h hh]
    exact hs.resting hm h hh
  · rw [hc]; exact hs.stopping
  · rw [hc]; exact hs.closed

theorem State.Rests.congr (hs : s.Rests i) (hc : (t.stream i).SameQueue (s.stream i))
    (hd : ∀ h ∈ (s.stream i).queue, t.desc h = s.desc h) : t.Rests i := by
  have moving := hc.moving
  obtain ⟨r, l, c, hc⟩ := hc
  refine ⟨fun h hh => ?_, ?_⟩
  · rw [hc] at hh
    rw [hd h (List.mem_of_mem_head? hh)]
    exact hs.1 h hh
  · have next := hs.2
    simp only [State.nextEligible, moving] at next ⊢
    rw [hc]
    simp only [readyCapture_congr none hd, readyPlay_congr hd]
    exact next

end

/-- Another move in flight, or none, is nothing to the descriptors and their pages. -/
theorem State.CoreOk.withMove {s : State} (hs : s.CoreOk) (m : Option Move) (r : List StreamNo)
    (hk : ∀ x ∈ m, x.kind.isSome = true ↔ x.direction = .capture) : ({ s with inFlight := m, rotation := r } : State).CoreOk :=
  ⟨⟨hs.places.queued, hs.places.once, hs.places.retired, hs.places.doneOnce⟩, hs.descs, hs.pages, ⟨hs.data.order, hs.data.count⟩, hk⟩

theorem liveMove_idle {s : State} (h : s.inFlight = none) (j : StreamNo) : s.liveMove j = none := by
  rw [State.liveMove, h]; rfl

theorem liveMove_of_move {s : State} {m : Move} (h : s.inFlight = some m) (hv : m.void = false) :
    s.liveMove m.stream = some { m with mute := false } := by
  rw [State.liveMove, h, Option.bind_some, if_pos ⟨rfl, hv⟩]

theorem liveMove_other {s : State} {m : Move} {j : StreamNo} (h : s.inFlight = some m) (hj : j ≠ m.stream) :
    s.liveMove j = none := by
  rw [State.liveMove, h, Option.bind_some, if_neg fun e => hj e.1.symm]

theorem heldInFlight_other {s : State} {m : Move} {j : StreamNo} (h : s.inFlight = some m) (hj : j ≠ m.stream) :
    s.heldInFlight j = false := by
  simp [State.heldInFlight, h, hj.symm]

theorem heldInFlight_idle {s : State} (h : s.inFlight = none) (j : StreamNo) : s.heldInFlight j = false := by
  rw [State.heldInFlight, h]

/-! ### GRANT -/

/-- A grant of move `m`, the rotation list then being `r` (R68, R83). -/
def State.granted (s : State) (m : Move) (r : List StreamNo) : State := { s with inFlight := some m, rotation := r }

@[simp] theorem State.granted_stream (s : State) (m : Move) (r : List StreamNo) (j : StreamNo) :
    (s.granted m r).stream j = s.stream j := rfl
@[simp] theorem State.granted_desc (s : State) (m : Move) (r : List StreamNo) (h : Handle) : (s.granted m r).desc h = s.desc h := rfl
@[simp] theorem State.granted_inFlight (s : State) (m : Move) (r : List StreamNo) : (s.granted m r).inFlight = some m := rfl

section
variable {s : State} {i : StreamNo}

/-- A grant to one stream is nothing to the others: the engine was idle. -/
theorem grant_others {u : State} {m : Move} {r : List StreamNo} (hidle : s.inFlight = none) (hd : ∀ h, u.desc h = s.desc h)
    (hst : ∀ j, j ≠ m.stream → u.stream j = s.stream j) {j : StreamNo} (hj : j ≠ m.stream) : SameStream j s (u.granted m r) :=
  SameStream.of_stream (hst j hj) (fun h _ => hd h)
    ((liveMove_other (u.granted_inFlight m r) hj).trans (liveMove_idle hidle j).symm)
    fun e => by rw [heldInFlight_other (u.granted_inFlight m r) hj] at e; cases e

theorem playRequests_iff : s.playRequests i = true ↔ (s.stream i).moving = true ∧ s.movingFor i = false ∧
    ∃ h f, s.headFrame i = some (h, f) ∧ inWindow (s.clock i) f = true := by
  unfold State.playRequests State.clock
  cases hf : s.headFrame i with
  | none => simp
  | some x => simp [Prod.ext_iff, and_assoc]

theorem grantPlay_parts (hs : s.PartsOk s.clock) (hidle : s.inFlight = none) (hd : (s.stream i).direction = .play)
    (hr : s.playRequests i = true) : (s.grantPlay i).PartsOk s.clock := by
  obtain ⟨-, -, h, f, hf, hw⟩ := playRequests_iff.mp hr
  have granted : s.grantPlay i = s.granted (s.playMove i h f) (rotated s.mode i s.rotation) := by
    simp only [State.grantPlay, hf]
    rfl
  have ok := hs.streams i
  have flow := ok.loose.play hd
  rw [granted]
  refine hs.step (i := i) (hs.core.withMove _ _ fun m hm => ?_) ⟨⟨?_, fun _ => ?_, fun e => ?_⟩, ?_⟩ fun j e =>
    grant_others hidle (fun _ => rfl) (fun _ _ => rfl) e
  · cases hm
    simp [State.playMove]
  · exact ok.loose.queue.congr ⟨_, _, _, rfl⟩ fun _ _ => rfl
  · refine ⟨flow.silent, fun m hm => ?_, flow.four, flow.behind, flow.closed⟩
    have live := liveMove_of_move (s.granted_inFlight (s.playMove i h f) (rotated s.mode i s.rotation)) rfl
    cases live.symm.trans hm
    exact ⟨rfl, rfl, hf, rfl, hw⟩
  · exact absurd (hd.symm.trans e) (by decide)
  · exact ok.rests.congr ⟨_, _, _, rfl⟩ fun _ _ => rfl

theorem grantCapture_parts (hs : s.PartsOk s.clock) (hidle : s.inFlight = none) (hd : (s.stream i).direction = .capture) :
    (s.grantCapture i).PartsOk s.clock := by
  have ok := hs.streams i
  have flow := ok.loose.capture hd
  unfold State.grantCapture
  split
  · exact hs
  · next e rest hb =>
    have stream : (s.modStream i fun st => { st with backlog := rest }).stream i = { s.stream i with backlog := rest } :=
      State.stream_modStream_same s i _
    have others : ∀ j, j ≠ i → (s.modStream i fun st => { st with backlog := rest }).stream j = s.stream j :=
      fun j => State.stream_modStream_ne s _
    have core := (CoreFrame.modStream s i (fun st => { st with backlog := rest }) rfl).keeps hs.core
    have descs : ∀ x, (s.modStream i fun st => { st with backlog := rest }).desc x = s.desc x := fun _ => rfl
    change ((s.modStream i fun st => { st with backlog := rest }).granted (s.captureMove i e) (rotated s.mode i s.rotation)).PartsOk _
    generalize (s.modStream i fun st => { st with backlog := rest }) = u at stream others core descs
    have live : (u.granted (s.captureMove i e) (rotated s.mode i s.rotation)).liveMove i =
        some { s.captureMove i e with mute := false } := liveMove_of_move (u.granted_inFlight _ _) rfl
    refine hs.step (i := i) (core.withMove _ _ fun m hm => ?_) ⟨⟨?_, fun h => ?_, fun _ => ⟨?_, ?_, fun m hm => ?_, ?_, ?_⟩⟩, ?_⟩
      fun j ej => grant_others (m := s.captureMove i e) hidle descs others ej
    · cases hm
      simp [State.captureMove]
    · exact ok.loose.queue.congr ⟨_, _, _, stream⟩ fun h _ => descs h
    · rw [State.granted_stream, stream] at h
      exact absurd (hd.symm.trans h) (by decide)
    · have held := flow.held
      rw [State.heldCount, hb, List.countP_cons, heldInFlight_idle hidle] at held
      rw [State.heldCount, State.heldInFlight, State.granted_stream, stream, State.granted_inFlight]
      cases hk : e.kind.isHeld <;> simp [hk, State.captureMove] at held ⊢ <;> omega
    · rw [State.granted_stream, stream]; exact flow.ring
    · cases live.symm.trans hm
      rw [State.granted_stream, stream]
      exact ⟨rfl, rfl⟩
    · have order := flow.order
      rw [liveMove_idle hidle, hb] at order
      rw [live, State.granted_stream, stream]
      simp only [State.granted_desc, descs]
      exact order
    · rw [State.granted_stream, stream]
      exact fun x hx => flow.samples x (hb ▸ List.mem_cons_of_mem e hx)
    · exact ok.rests.congr ⟨_, _, _, stream⟩ fun h _ => descs h

theorem grantTo_parts (hs : s.PartsOk s.clock) (hidle : s.inFlight = none) (hr : s.requests i = true) :
    (s.grantTo i).PartsOk s.clock := by
  unfold State.grantTo
  cases hd : (s.stream i).direction with
  | play =>
    rw [State.requests, hd] at hr
    exact grantPlay_parts hs hidle hd hr
  | capture => exact grantCapture_parts hs hidle hd

end

/-! ### COMPLETION of a play move -/

/-- With the move gone the engine is idle (R69). -/
theorem void_parts {s : State} (hs : s.PartsOk s.clock) (hv : ∀ m ∈ s.inFlight, m.void = true) :
    ({ s with inFlight := none } : State).PartsOk s.clock := by
  refine hs.same { CoreFrame.refl s with kinds := fun m hm => by cases hm } fun j => ?_
  refine SameStream.of_stream rfl (fun _ _ => rfl) ?_ fun e => by rw [heldInFlight_idle rfl] at e; cases e
  rw [liveMove_idle rfl]
  cases hm : s.inFlight with
  | none => exact (liveMove_idle hm j).symm
  | some m => rw [State.liveMove, hm, Option.bind_some, if_neg fun e => by rw [hv m hm] at e; cases e.2]

/-- The state in which a play completion has placed its entry and resolved its position, before the test of R44. -/
def State.placed (s : State) (m : Move) : State :=
  ((s.modStream m.stream fun st => { st with
      ring := placeInRing st.ring (m.frame - (s.domain (s.stream m.stream).domain).counter).toNat (s.placedEntry m) }).modDesc
    m.handle fun d => { d with state := .active }).resolvePlay m.handle
      (if m.mute then PlayOutcome.muted else PlayOutcome.sounded) 1

theorem completePlay_eq (s : State) (m : Move) : s.completePlay m = (s.placed m).settle m.stream := rfl

/-- The frame after one in the window lies one further on. -/
theorem next_in_window {n S : FrameNo} {r : Nat} (hw : inWindow n (frameOf S r) = true) :
    (frameOf S r - n).toNat + 1 ≤ 4 ∧ (frameOf S (r + 1) - n).toNat = (frameOf S r - n).toNat + 1 := by
  have hw : (frameOf S r - n).toNat < 4 := of_decide_eq_true hw
  have step : frameOf S (r + 1) = frameOf S r + 1 := by
    rw [frameOf, BitVec.ofNat_add, ← BitVec.add_assoc]
    rfl
  rw [step]
  constructor
  · omega
  · bv_omega

section
variable {s : State} {m : Move}

theorem placed_desc_same : (s.placed m).desc m.handle =
    ({ s.desc m.handle with state := .active } : Descriptor).resolvePlay (if m.mute then .muted else .sounded) 1 := by
  rw [State.placed, State.resolvePlay_eq, State.release_desc, State.desc_modDesc_same, State.desc_modDesc_same]
  rfl

theorem placed_desc_ne {x : Handle} (hx : x ≠ m.handle) : (s.placed m).desc x = s.desc x := by
  rw [State.placed, State.resolvePlay_eq, State.release_desc, State.desc_modDesc_ne _ _ hx, State.desc_modDesc_ne _ _ hx]
  rfl

theorem placed_stream : (s.placed m).stream m.stream = { s.stream m.stream with
    ring := placeInRing (s.stream m.stream).ring (m.frame - s.clock m.stream).toNat (s.placedEntry m) } :=
  State.stream_modStream_same s m.stream fun st => { st with
    ring := placeInRing st.ring (m.frame - (s.domain (s.stream m.stream).domain).counter).toNat (s.placedEntry m) }

theorem placed_stream_ne {j : StreamNo} (hj : j ≠ m.stream) : (s.placed m).stream j = s.stream j :=
  State.stream_modStream_ne s (fun st => { st with
    ring := placeInRing st.ring (m.frame - (s.domain (s.stream m.stream).domain).counter).toNat (s.placedEntry m) }) hj

theorem placed_inFlight : (s.placed m).inFlight = s.inFlight := rfl

theorem placed_queue (j : StreamNo) : ((s.placed m).stream j).queue = (s.stream j).queue := by
  by_cases e : j = m.stream
  · rw [e, placed_stream]
  · rw [placed_stream_ne e]

theorem placed_core (hs : s.CoreOk) (he : (s.desc m.handle).eligible = true) (hd : (s.desc m.handle).direction = .play)
    (hr : (s.desc m.handle).resolved < (s.desc m.handle).frames) : (s.placed m).CoreOk := by
  have active := (hs.descs m.handle).activated he
  refine hs.handOver (h := m.handle) (ps := ({ s.desc m.handle with state := .active } : Descriptor).endedPages 1) (cs := [])
    (Descriptor.live_of_eligible he) (by rw [placed_desc_same]; rfl) (by rw [placed_desc_same]; rfl) (by rw [placed_desc_same]; exact active.resolvePlay rfl hd _ hr) (fun x hx => placed_desc_ne hx)
    placed_queue ?_ (List.append_nil _).symm rfl (fun x hx => ⟨x, hx, rfl, rfl⟩) ?_ (by simp)
  · rw [State.placed, State.resolvePlay_eq, State.desc_modDesc_same]
    rfl
  · rw [placed_desc_same, List.filterMap_nil, List.append_nil]
    exact Descriptor.heldPages_resolvePlay { s.desc m.handle with state := .active } _ 1

theorem placed_queueLoose {q : List Handle} (hs : s.CoreOk) (hl : s.QueueLoose m.stream) (hq : (s.stream m.stream).queue = m.handle :: q)
    (he : (s.desc m.handle).eligible = true) (hd : (s.stream m.stream).direction = .play) : (s.placed m).QueueLoose m.stream := by
  obtain ⟨notThere, -⟩ := List.nodup_cons.mp (hq ▸ hs.places.once m.stream)
  refine hl.replace (front := []) hq ⟨_, _, _, placed_stream⟩ (fun x hx => placed_desc_ne fun e => notThere (e ▸ hx))
    (by rw [placed_desc_same]; exact ⟨rfl, rfl, rfl⟩) (fun hm => ?_) (fun x hx => by cases hx) fun x hx ha => ?_
  · rw [hl.moving_of_eligible (by simp [hq]) he] at hm
    cases hm
  · rw [placed_desc_same]
    exact ha.left (Nat.zero_le _) fun e => absurd (hd.symm.trans e) (by decide)

theorem placed_playFlow (hidle : s.inFlight = none) (hl : s.PlayFlow (s.clock m.stream) m.stream)
    (hc : (s.stream m.stream).state ≠ .closed) (hf : s.headFrame m.stream = some (m.handle, m.frame))
    (hw : inWindow (s.clock m.stream) m.frame = true) : (s.placed m).PlayFlow (s.clock m.stream) m.stream := by
  have before := hl.behind _ _ hf hw
  obtain ⟨⟨q, hq⟩, hnext⟩ := headFrame_some hf
  obtain ⟨-, -, S, hS, hframe⟩ := nextFrame_some hnext
  rw [hframe] at hw
  obtain ⟨four, further⟩ := next_in_window hw
  have length : (placeInRing (s.stream m.stream).ring (m.frame - s.clock m.stream).toNat (s.placedEntry m)).length =
      (m.frame - s.clock m.stream).toNat + 1 := placeInRing_length _ before
  refine ⟨by rw [placed_stream]; exact hl.silent, fun x hx => ?_, ?_, fun h f e _ => ?_, fun e => ?_⟩
  · rw [liveMove_idle (s := s.placed m) hidle] at hx
    cases hx
  · rw [placed_stream]
    exact length ▸ hframe ▸ four
  · obtain ⟨⟨q', hq'⟩, hnext'⟩ := headFrame_some e
    rw [placed_queue, hq] at hq'
    cases hq'
    rw [placed_desc_same] at hnext'
    obtain ⟨-, -, S', hS', rfl⟩ := nextFrame_some hnext'
    obtain rfl : S = S' := Option.some.inj (hS.symm.trans hS')
    rw [placed_stream]
    change (placeInRing _ _ _).length ≤ (frameOf S ((s.desc m.handle).resolved + 1) - _).toNat
    rw [length, further, hframe]
  · rw [placed_stream] at e
    exact absurd e hc

theorem completePlay_parts (hs : s.PartsOk s.clock) (hm : s.inFlight = some m) (hv : m.void = false) (hk : m.kind = none) :
    (({ s with inFlight := none } : State).completePlay m).PartsOk s.clock := by
  have loose := (hs.streams m.stream).loose
  have live := liveMove_of_move hm hv
  have notCapture : m.direction ≠ .capture := fun e => by
    have := (hs.core.kinds m hm).mpr e
    rw [hk] at this
    cases this
  have hd : (s.stream m.stream).direction = .play := by
    cases hd : (s.stream m.stream).direction with
    | play => rfl
    | capture => exact absurd ((loose.capture hd).move _ live).2 notCapture
  obtain ⟨-, -, hf, -, hw⟩ := (loose.play hd).move _ live
  obtain ⟨⟨q, hq⟩, hnext⟩ := headFrame_some hf
  obtain ⟨eligible, unresolved, -⟩ := nextFrame_some hnext
  have core := hs.core.withMove none s.rotation (by simp)
  have idle : ({ s with inFlight := none } : State).StreamLoose (s.clock m.stream) m.stream := by
    have flow := loose.play hd
    refine ⟨loose.queue.congr ⟨_, _, _, rfl⟩ fun _ _ => rfl, fun _ => ⟨flow.silent, fun x hx => ?_, flow.four, flow.behind, flow.closed⟩,
      fun e => absurd (hd.symm.trans e) (by decide)⟩
    rw [liveMove_idle rfl] at hx
    cases hx
  have dir : (s.desc m.handle).direction = .play := ((loose.queue.own m.handle (by simp [hq])).2.1).trans hd
  have notClosed : (s.stream m.stream).state ≠ .closed := fun e => by
    have := loose.queue.closed e
    rw [hq] at this
    cases this
  rw [completePlay_eq]
  refine hs.settleAt (i := m.stream) (fun _ => ?_) (placed_core core eligible dir unresolved)
    ⟨placed_queueLoose core idle.queue hq eligible hd, fun _ => placed_playFlow (s := { s with inFlight := none }) rfl (idle.play hd) notClosed hf hw, fun e => ?_⟩
    fun j e => ?_
  · rw [placed_stream]
    rfl
  · rw [placed_stream] at e
    exact absurd (hd.symm.trans e) (by decide)
  · refine SameStream.of_stream (placed_stream_ne (s := { s with inFlight := none }) e)
      (fun x hx => placed_desc_ne (s := { s with inFlight := none }) fun ex =>
        hs.core.places.disjoint e hx (ex ▸ (by simp [hq] : m.handle ∈ (s.stream m.stream).queue)))
      ((liveMove_idle (s := ({ s with inFlight := none } : State).placed m) rfl j).trans (liveMove_other hm e).symm) fun eh => ?_
    rw [heldInFlight_idle (s := ({ s with inFlight := none } : State).placed m) rfl] at eh
    cases eh

end

end Sys2Proof.Machine

/-! ## The pools: COMPLETION of a capture move -/

namespace Sys2Proof.Machine

/-! ### A filled page is handed on -/

/-- From `s` to `t` descriptor `h` has handed the claims `cs` on, and is now the record `d`. -/
structure HandsOn (h : Handle) (d : Descriptor) (cs : List Claim) (s t : State) : Prop where
  desc : t.desc h = d
  others : ∀ x, x ≠ h → t.desc x = s.desc x
  streams : t.streams = s.streams
  freeList : t.freeList = s.freeList
  claims : t.claims = s.claims ++ cs
  port : t.port = s.port
  inFlight : t.inFlight = s.inFlight

section
variable {s : State} {h : Handle}

/-- What handing on a filled page comes to (R60): at most one DATA claim, and the page list entry it carries is gone. -/
theorem passFilled_spec (hg : (s.desc h).gone ≤ (s.desc h).written / 512) (hn : (s.desc h).written / 512 ≤ (s.desc h).gone + 1)
    (hp : (s.desc h).written / 512 ≤ (s.desc h).pages.length) : ∃ cs, (∀ c ∈ cs, c.DataOf h) ∧
      (s.desc h).heldPages = cs.filterMap Claim.page ++ (s.desc h).pages.drop ((s.desc h).written / 512) ∧
      HandsOn h { s.desc h with gone := (s.desc h).written / 512 } cs s (s.passFilled h) := by
  unfold State.passFilled
  split
  · next hlt =>
    have next : (s.desc h).written / 512 = (s.desc h).gone + 1 := Nat.le_antisymm hn hlt
    have inside : (s.desc h).gone < (s.desc h).pages.length := by omega
    have held : (s.desc h).heldPages = (s.desc h).pages[(s.desc h).gone] :: (s.desc h).pages.drop ((s.desc h).gone + 1) :=
      List.drop_eq_getElem_cons inside
    refine ⟨[(s.desc h).dataClaim h (s.desc h).gone 512 (s.desc h).pages[(s.desc h).gone]], ?_, ?_, ?_⟩
    · intro c hc
      rw [List.mem_singleton.mp hc]
      exact ⟨_, rfl, rfl, Nat.le_add_left 1 511, Nat.le_refl 512⟩
    · rw [held, next]
      rfl
    · rw [State.passPage, held, next]
      exact ⟨State.desc_modDesc_same _ h _, fun x hx => State.desc_modDesc_ne _ _ hx, rfl, rfl, rfl, rfl, rfl⟩
  · next hge =>
    have same : (s.desc h).written / 512 = (s.desc h).gone := Nat.le_antisymm (Nat.not_lt.mp hge) hg
    rw [same]
    exact ⟨[], by simp, rfl, rfl, fun _ _ => rfl, rfl, rfl, (List.append_nil _).symm, rfl, rfl⟩

end

/-! ### The oldest waiting position -/

theorem waitingAt_store {d : Descriptor} (h : Handle) (k : EntryKind) : (d.store k).waitingAt h = (d.waitingAt h).tail := by
  have eligible : (d.store k).eligible = d.eligible := rfl
  unfold Descriptor.waitingAt
  rw [eligible]
  split
  · change (List.range (d.assigned - (d.resolved + 1))).map (fun j => (h, d.resolved + 1 + j, frameOf (d.span.getD 0) (d.resolved + 1 + j))) = _
    rw [← List.map_tail, Nat.sub_add_eq]
    cases d.assigned - d.resolved with
    | zero => rfl
    | succ n =>
      rw [List.range_succ_eq_map, List.tail_cons, List.map_map, Nat.add_sub_cancel]
      exact List.map_congr_left fun j _ => by simp [Nat.add_comm 1 j, Nat.add_assoc]
  · rfl

/-- The positions waiting in a queue at rest begin with those of its head. -/
theorem head_waits {s : State} {i : StreamNo} {h : Handle} {q : List Handle} (hl : s.QueueLoose i) (hr : s.Rests i)
    (hq : (s.stream i).queue = h :: q) (hw : ((s.stream i).queue.flatMap fun x => (s.desc x).waitingAt x) ≠ []) :
    (s.desc h).eligible = true ∧ (s.desc h).resolved < (s.desc h).assigned := by
  have behind : (s.desc h).fullyAssigned = false → ∀ x ∈ q, (s.desc x).waitingAt x = [] := fun hf x hx => by
    have order := hl.order
    rw [hq] at order
    exact waitingAt_of_not_eligible (Ahead.none_eligible order hf _ (List.mem_map_of_mem hx)) x
  have stuck : (s.desc h).fullyAssigned = false → (s.desc h).waitingAt h ≠ [] := fun hf e => hw <| by
    rw [hq, List.flatMap_cons, e, List.nil_append]
    exact List.flatMap_eq_nil_iff.mpr (behind hf)
  have eligible : (s.desc h).eligible = true := by
    by_contra he
    have he : (s.desc h).eligible = false := by simpa using he
    exact stuck (by simp [Descriptor.fullyAssigned, he]) (waitingAt_of_not_eligible he h)
  refine ⟨eligible, ?_⟩
  by_contra hn
  have none : (s.desc h).waitingAt h = [] := by
    rw [Descriptor.waitingAt, if_pos eligible, Nat.sub_eq_zero_of_le (Nat.not_lt.mp hn)]
    rfl
  cases hf : (s.desc h).fullyAssigned with
  | false => exact stuck hf none
  | true =>
    have assigned := of_decide_eq_true (Bool.and_eq_true_iff.mp hf).2
    have notSpent := hr.1 h (by simp [hq])
    rw [Descriptor.spent, eligible, Bool.true_and, decide_eq_false_iff_not] at notSpent
    exact notSpent (Nat.le_trans assigned (Nat.not_lt.mp hn))

theorem waitingAt_cons {d : Descriptor} (h : Handle) (he : d.eligible = true) (hr : d.resolved < d.assigned) :
    d.waitingAt h = (h, d.resolved, frameOf (d.span.getD 0) d.resolved) :: (d.waitingAt h).tail := by
  obtain ⟨n, hn⟩ : ∃ n, d.assigned - d.resolved = n + 1 := ⟨d.assigned - d.resolved - 1, by omega⟩
  rw [Descriptor.waitingAt, if_pos he, hn, List.range_succ_eq_map]
  rfl

/-! ### The completion -/

/-- The bytes that a capture completion leaves in the page memory (R77, R42). -/
def State.writtenMem (s : State) (m : Move) : Memory :=
  writeOffsets (s.desc m.handle) (m.position * (s.desc m.handle).frameSize)
    (m.captureBytes (s.stream m.stream).width (s.stream m.stream).channels) s.mem

/-- The state in which a capture completion has written its bytes and resolved its position, before the page is handed
on. -/
def State.written (s : State) (m : Move) (k : EntryKind) : State :=
  ({ s with mem := s.writtenMem m } : State).modDesc m.handle fun d => { d with
    resolved := d.resolved + 1, written := m.position * (s.desc m.handle).frameSize + (s.desc m.handle).frameSize
    counts := d.counts.addCapture k }

theorem completeCapture_eq (s : State) (m : Move) (k : EntryKind) :
    s.completeCapture m k = ((s.written m k).passFilled m.handle).settle m.stream := rfl

section
variable {s : State} {m : Move} {k : EntryKind}

/-- A capture completion at the descriptor that it stores to: one more position stored, and at most one page handed on. -/
theorem written_handsOn (hs : s.CoreOk) (he : (s.desc m.handle).eligible = true) (hd : (s.desc m.handle).direction = .capture)
    (hp : m.position = (s.desc m.handle).resolved) (hr : (s.desc m.handle).resolved < (s.desc m.handle).assigned)
    (hfs : (s.desc m.handle).frameSize ≤ 64) : ∃ cs, (∀ c ∈ cs, c.DataOf m.handle) ∧
      (s.desc m.handle).heldPages = cs.filterMap Claim.page ++ ((s.desc m.handle).store k).heldPages ∧
      HandsOn m.handle ((s.desc m.handle).store k) cs s ((s.written m k).passFilled m.handle) := by
  have ok := hs.descs m.handle
  have live := Descriptor.live_of_eligible he
  have size := ok.sized live
  obtain ⟨-, assigned, gone, written⟩ := ok.capture live hd
  have written : (s.desc m.handle).written = (s.desc m.handle).resolved * (s.desc m.handle).frameSize :=
    written.resolve_right fun ⟨_, _, e⟩ => by omega
  have succ : ((s.desc m.handle).resolved + 1) * (s.desc m.handle).frameSize =
      (s.desc m.handle).resolved * (s.desc m.handle).frameSize + (s.desc m.handle).frameSize := Nat.succ_mul _ _
  have self : (s.written m k).desc m.handle = { s.desc m.handle with
      resolved := (s.desc m.handle).resolved + 1, written := ((s.desc m.handle).resolved + 1) * (s.desc m.handle).frameSize
      counts := (s.desc m.handle).counts.addCapture k } := by
    rw [State.written, State.desc_modDesc_same, hp, ← succ]
    rfl
  have entries : ((s.desc m.handle).resolved + 1) * (s.desc m.handle).frameSize / 512 ≤ (s.desc m.handle).pages.length :=
    size.entry_le (Nat.le_trans hr assigned)
  obtain ⟨cs, dataOf, held, on⟩ := passFilled_spec (s := s.written m k) (h := m.handle)
    (by rw [self]; simp only [gone, written]; omega) (by rw [self]; simp only [gone, written]; omega) (by rw [self]; exact entries)
  refine ⟨cs, dataOf, ?_, ?_, fun x hx => (on.others x hx).trans (State.desc_modDesc_ne _ _ hx), on.streams, on.freeList,
    on.claims, on.port, on.inFlight⟩
  · rw [self] at held
    exact held
  · rw [on.desc, self]
    rfl

/-- The live move of a capture stream is for the first unresolved position of the head of its queue (R77). -/
theorem captured_head {m' : Move} (hok : s.StreamOk (s.clock m.stream) m.stream)
    (hd : (s.stream m.stream).direction = .capture) (hl : s.liveMove m.stream = some m') :
    ∃ q, (s.stream m.stream).queue = m'.handle :: q ∧ m'.position = (s.desc m'.handle).resolved ∧
      (s.desc m'.handle).eligible = true ∧ (s.desc m'.handle).resolved < (s.desc m'.handle).assigned ∧
      (s.stream m.stream).backlog.map BacklogEntry.place =
        ((s.desc m'.handle).waitingAt m'.handle).tail ++ q.flatMap fun x => (s.desc x).waitingAt x := by
  have order := (hok.loose.capture hd).order
  rw [hl] at order
  cases hq : (s.stream m.stream).queue with
  | nil =>
    rw [hq] at order
    cases order
  | cons h q =>
    obtain ⟨eligible, waits⟩ := head_waits hok.loose.queue hok.rests hq (by rw [← order]; simp)
    rw [hq, List.flatMap_cons, waitingAt_cons h eligible waits] at order
    obtain ⟨first, rest⟩ := List.cons_eq_cons.mp order
    obtain ⟨rfl, hp, -⟩ : m'.handle = h ∧ m'.position = (s.desc h).resolved ∧ _ := by simpa [Move.carries] using first
    exact ⟨q, rfl, hp, eligible, waits, rest⟩

theorem completeCapture_parts (hs : s.PartsOk s.clock) (hm : s.inFlight = some m) (hv : m.void = false) (hk : m.kind = some k)
    (hfs : (s.stream m.stream).isOpen = true → (s.stream m.stream).frameSize ≤ 64) :
    (({ s with inFlight := none } : State).completeCapture m k).PartsOk s.clock := by
  have ok := hs.streams m.stream
  have live := liveMove_of_move hm hv
  have hd : (s.stream m.stream).direction = .capture := by
    cases hd : (s.stream m.stream).direction with
    | capture => rfl
    | play =>
      have := (hs.core.kinds m hm).mp (by rw [hk]; rfl)
      exact absurd (((ok.loose.play hd).move _ live).2.1.symm.trans this) (by decide)
  obtain ⟨q, hq, hp, eligible, waits, rest⟩ := captured_head ok hd live
  dsimp only at hq hp eligible waits rest
  have own := ok.loose.queue.own m.handle (by simp [hq])
  have isOpen : (s.stream m.stream).isOpen = true := by
    exact decide_eq_true fun e => by rw [ok.loose.queue.closed e] at hq; cases hq
  have core := hs.core.withMove none s.rotation (by simp)
  obtain ⟨cs, dataOf, held, on⟩ := written_handsOn (s := { s with inFlight := none }) (k := k) core eligible (own.2.1.trans hd) hp waits
    (own.2.2.le.trans (hfs isOpen))
  rw [completeCapture_eq]
  generalize (({ s with inFlight := none } : State).written m k).passFilled m.handle = u at on
  have streams : ∀ j, u.stream j = s.stream j := fun j => by rw [State.stream, on.streams]; rfl
  have others : ∀ x, x ≠ m.handle → u.desc x = s.desc x := on.others
  have self : u.desc m.handle = (s.desc m.handle).store k := on.desc
  have idle : u.inFlight = none := on.inFlight
  obtain ⟨notThere, -⟩ := List.nodup_cons.mp (hq ▸ hs.core.places.once m.stream)
  have back : ∀ x ∈ q, u.desc x = s.desc x := fun x hx => others x fun e => notThere (e ▸ hx)
  refine hs.settleAt (i := m.stream) (fun e => ?_) ?_ ⟨?_, fun e => ?_, fun _ => ?_⟩ fun j e => ?_
  · rw [streams, hd] at e
    cases e
  · exact hs.core.handOver (h := m.handle) (ps := []) (Descriptor.live_of_eligible eligible)
      (by rw [self]; exact Descriptor.live_of_eligible (d := (s.desc m.handle).store k) eligible) (by rw [self]; rfl)
      (by rw [self]; exact (hs.core.descs m.handle).store eligible (own.2.1.trans hd) k waits) others (fun j => by rw [streams])
      (on.freeList.trans (List.append_nil _).symm) on.claims (congrArg Port.outbound on.port) (fun x hx => by rw [idle] at hx; cases hx)
      (by rw [self, List.nil_append]; exact held) dataOf
  · refine ok.loose.queue.replace (front := []) hq ⟨_, _, _, streams m.stream⟩ back (by rw [self]; exact ⟨rfl, rfl, rfl⟩) (fun hn => ?_)
      (fun x hx => by cases hx) fun x hx ha => ?_
    · rw [ok.loose.queue.moving_of_eligible (by simp [hq]) eligible] at hn
      cases hn
    · rw [self]
      exact ha.left (Nat.le_refl _) fun _ e => e
  · rw [streams, hd] at e
    cases e
  · have flow := ok.loose.capture hd
    refine ⟨?_, by rw [streams]; exact flow.ring, fun x hx => ?_, ?_, by rw [streams]; exact flow.samples⟩
    · have := flow.held
      rw [State.heldCount] at this ⊢
      rw [streams, heldInFlight_idle idle]
      exact Nat.le_trans (Nat.add_le_add_left (Nat.zero_le _) _) this
    · rw [liveMove_idle idle] at hx
      cases hx
    · have tail : (q.flatMap fun x => (u.desc x).waitingAt x) = q.flatMap fun x => (s.desc x).waitingAt x :=
        List.flatMap_congr fun x hx => by rw [back x hx]
      rw [liveMove_idle idle, streams, rest, hq, List.flatMap_cons, self, waitingAt_store, tail]
      rfl
  · refine SameStream.of_stream (streams j) (fun x hx => others x fun ex =>
      hs.core.places.disjoint e hx (ex ▸ (by simp [hq] : m.handle ∈ (s.stream m.stream).queue)))
      ((liveMove_idle idle j).trans (liveMove_other hm e).symm) fun eh => ?_
    rw [heldInFlight_idle idle] at eh
    cases eh

end

end Sys2Proof.Machine

/-! ## The pools: a play stream at a frame event -/

namespace Sys2Proof.Machine

/-- One stream is settled by hand, against a counter of its own, and the others are as they were. -/
theorem State.PartsOk.advance {clock : StreamNo → FrameNo} {s t : State} {i : StreamNo} {n : FrameNo} (hs : s.PartsOk clock)
    (hc : t.CoreOk) (hi : t.StreamOk n i) (hj : ∀ j, j ≠ i → SameStream j s t) : t.PartsOk (Function.update clock i n) :=
  ⟨hc, fun j => by
    by_cases e : j = i
    · rw [e, Function.update_self]; exact hi
    · rw [Function.update_of_ne e]; exact (hj j e).streamOk (hs.streams j)⟩

/-! ### Gap accounting -/

theorem sameStream_accounting {s : State} {i : StreamNo} {f : Stream → Stream}
    (hf : ∃ a b c, f (s.stream i) = { s.stream i with sounding := a, gapOpen := b, record := c }) (j : StreamNo) :
    SameStream j s (s.modStream i f) := by
  by_cases e : j = i
  · subst e
    obtain ⟨a, b, c, hf⟩ := hf
    have stream := (State.stream_modStream_same s j f).trans hf
    refine ⟨⟨a, b, c, stream⟩, fun _ _ => rfl, rfl, fun h => ?_⟩
    exact heldInFlight_congr (s := s) (t := s.modStream j f) rfl (by rw [stream]) ▸ h
  · exact sameStream_modStream f e

theorem gapFrame_fields (st : Stream) (f : FrameNo) :
    ∃ a b c, st.gapFrame f = { st with sounding := a, gapOpen := b, record := c } := by
  unfold Stream.gapFrame
  split <;> exact ⟨_, _, _, rfl⟩

/-- Gap accounting is nothing to the pools (R21, R22). -/
theorem account_same (s : State) (i : StreamNo) (c : FrameClass) (f : FrameNo) :
    CoreFrame s (s.account i c f) ∧ ∀ j, SameStream j s (s.account i c f) := by
  have gap : CoreFrame s (s.modStream i fun st => st.gapFrame f) ∧ ∀ j, SameStream j s (s.modStream i fun st => st.gapFrame f) := by
    obtain ⟨a, b, c, hf⟩ := gapFrame_fields (s.stream i) f
    exact ⟨CoreFrame.modStream s i _ (by rw [hf]), sameStream_accounting ⟨a, b, c, hf⟩⟩
  unfold State.account
  split
  · exact ⟨CoreFrame.refl s, fun j => SameStream.refl j s⟩
  · split
    · dsimp only
      split
      · exact gap
      · exact ⟨gap.1.trans (CoreFrame.raiseOnce _ rfl), fun j => (gap.2 j).trans (sameStream_raiseOnce j _ _)⟩
    · exact ⟨CoreFrame.refl s, fun j => SameStream.refl j s⟩
  · split
    · exact ⟨(CoreFrame.modStream s i (fun st => st.gapClosed f) rfl).trans (CoreFrame.raiseOnce _ rfl), fun j =>
        (sameStream_accounting ⟨_, _, _, rfl⟩ j).trans (sameStream_raiseOnce j _ _)⟩
    · exact ⟨CoreFrame.refl s, fun j => SameStream.refl j s⟩

theorem State.PartsOk.account {clock : StreamNo → FrameNo} {s : State} (hs : s.PartsOk clock) (i : StreamNo) (c : FrameClass)
    (f : FrameNo) : (s.account i c f).PartsOk clock :=
  hs.same (account_same s i c f).1 (account_same s i c f).2

/-! ### The counter passes the head's frame -/

theorem dueHead_of_headFrame {s : State} {i : StreamNo} {h : Handle} {n : FrameNo} (e : s.headFrame i = some (h, n)) :
    s.dueHead i n = some h := by
  obtain ⟨⟨q, hq⟩, hf⟩ := headFrame_some e
  obtain ⟨eligible, unresolved, S, hS, rfl⟩ := nextFrame_some hf
  rw [State.dueHead, hq]
  exact if_pos ⟨eligible, unresolved, by rw [hS]; rfl⟩

theorem headFrame_of_dueHead {s : State} {i : StreamNo} {h : Handle} {n : FrameNo} (e : s.dueHead i n = some h) :
    s.headFrame i = some (h, n) := by
  obtain ⟨head, eligible, unresolved, frame⟩ := State.dueHead_mem e
  rw [headFrame_eq, head, Option.bind_some, Descriptor.nextFrame, if_pos ⟨eligible, unresolved⟩, frame]
  rfl

/-- A frame other than N comes one nearer as the counter passes N. -/
theorem counter_passes {n f : FrameNo} (h : f ≠ n) : 1 ≤ (f - n).toNat ∧ (f - (n + 1)).toNat = (f - n).toNat - 1 := by
  constructor <;> bv_omega

/-- The counter passes N, and the ring is as it was but for the entry committed (R73). -/
theorem State.PlayFlow.commit {n : FrameNo} {s t : State} {i : StreamNo} (hs : s.PlayFlow n i)
    (hb : (t.stream i).backlog = (s.stream i).backlog) (hg : (t.stream i).generation = (s.stream i).generation)
    (hr : (t.stream i).ring = (s.stream i).ring.tail) (hc : (t.stream i).state = .closed → (s.stream i).state = .closed)
    (hl : t.liveMove i = s.liveMove i) (hf : t.headFrame i = s.headFrame i) (hd : ∀ h, t.desc h = s.desc h)
    (hn : ∀ h f, s.headFrame i = some (h, f) → f ≠ n) : t.PlayFlow (n + 1) i := by
  have length : (t.stream i).ring.length = (s.stream i).ring.length - 1 := by rw [hr, List.length_tail]
  refine ⟨hb.trans hs.silent, fun m hm => ?_, ?_, fun h f e hw => ?_, fun e => ?_⟩
  · rw [hl] at hm
    obtain ⟨h1, h2, h3, h4, h5⟩ := hs.move m hm
    have h5 : (m.frame - n).toNat < 4 := of_decide_eq_true h5
    refine ⟨h1.trans hg.symm, h2, hf.trans h3, by rw [hd]; exact h4, decide_eq_true ?_⟩
    rw [(counter_passes (hn _ _ h3)).2]
    exact Nat.lt_of_le_of_lt (Nat.sub_le _ _) h5
  · have := hs.four
    omega
  · rw [hf] at e
    have hw : (f - (n + 1)).toNat < 4 := of_decide_eq_true hw
    obtain ⟨later, nearer⟩ := counter_passes (hn _ _ e)
    rw [length, nearer]
    by_cases hin : inWindow n f = true
    · exact Nat.sub_le_sub_right (hs.behind h f e hin) 1
    · have far : ¬ (f - n).toNat < 4 := fun h => hin (decide_eq_true h)
      have := hs.four
      omega
  · rw [hr, hs.closed (hc e)]
    rfl

/-! ### The due position -/

/-- The state in which the due position is resolved and its move void, before the test of R44. -/
def State.passedDue (s : State) (i : StreamNo) (h : Handle) : State :=
  (s.voidIf fun m => decide (m.stream = i) && decide (m.handle = h) && decide (m.position = (s.desc h).resolved)).resolvePlay h
    (if (s.desc h).state = .active then PlayOutcome.skipped else PlayOutcome.late) 1

theorem resolveDue_eq (s : State) (i : StreamNo) (h : Handle) (t : FrameTime) :
    s.resolveDue i h t = (s.passedDue i h).settleAt i t := rfl

section
variable {s : State} {i : StreamNo} {h : Handle} {n : FrameNo}

theorem passedDue_desc_same : (s.passedDue i h).desc h =
    (s.desc h).resolvePlay (if (s.desc h).state = .active then .skipped else .late) 1 := by
  rw [State.passedDue, State.resolvePlay_eq, State.release_desc, State.desc_modDesc_same]
  rfl

theorem passedDue_desc_ne {x : Handle} (hx : x ≠ h) : (s.passedDue i h).desc x = s.desc x := by
  rw [State.passedDue, State.resolvePlay_eq, State.release_desc, State.desc_modDesc_ne _ _ hx]
  rfl

theorem passedDue_stream (j : StreamNo) : (s.passedDue i h).stream j = s.stream j := rfl

theorem passedDue_freeList : (s.passedDue i h).freeList = s.freeList ++ (s.desc h).endedPages 1 := by
  rw [State.passedDue, State.resolvePlay_eq]
  rfl

/-- The move that carries the due position becomes void (R38). -/
theorem passedDue_liveMove (hl : s.PlayFlow n i) (hf : s.headFrame i = some (h, n)) : (s.passedDue i h).liveMove i = none := by
  cases hm : (s.passedDue i h).liveMove i with
  | none => rfl
  | some m =>
    exfalso
    obtain ⟨m', hm', hi, hv, rfl⟩ := mem_liveMove.mp hm
    obtain ⟨m, hms, rfl⟩ : ∃ m ∈ s.inFlight, { m with void := m.void || (decide (m.stream = i) && decide (m.handle = h) &&
        decide (m.position = (s.desc h).resolved)) } = m' := by
      have flight : (s.passedDue i h).inFlight = s.inFlight.map fun m => { m with void := m.void || (decide (m.stream = i) &&
        decide (m.handle = h) && decide (m.position = (s.desc h).resolved)) } := rfl
      rw [flight] at hm'
      exact Option.map_eq_some_iff.mp hm'
    obtain ⟨notVoid, notIts⟩ := Bool.or_eq_false_iff.mp hv
    obtain ⟨-, -, hf', hp, -⟩ := hl.move { m with mute := false } (mem_liveMove.mpr ⟨m, hms, hi, notVoid, rfl⟩)
    rw [hf] at hf'
    cases hf'
    dsimp only at hi hp notIts
    simp [hi, hp] at notIts

theorem passedDue_keeps (hc : s.CoreOk) (hl : s.StreamLoose n i) (hd : (s.stream i).direction = .play)
    (hf : s.headFrame i = some (h, n)) (hr : (s.stream i).ring = []) :
    (s.passedDue i h).CoreOk ∧ (s.passedDue i h).StreamLoose (n + 1) i := by
  obtain ⟨⟨q, hq⟩, hnext⟩ := headFrame_some hf
  obtain ⟨eligible, unresolved, -⟩ := nextFrame_some hnext
  have inQueue : h ∈ (s.stream i).queue := by simp [hq]
  have dir : (s.desc h).direction = .play := (hl.queue.own h inQueue).2.1.trans hd
  obtain ⟨notThere, -⟩ := List.nodup_cons.mp (hq ▸ hc.places.once i)
  refine ⟨hc.handOver (h := h) (cs := []) (Descriptor.live_of_eligible eligible)
    (by rw [passedDue_desc_same]; exact Descriptor.live_of_eligible eligible)
    (by rw [passedDue_desc_same]; rfl) (by rw [passedDue_desc_same]; exact (hc.descs h).resolvePlay eligible dir _ unresolved)
    (fun x hx => passedDue_desc_ne hx) (fun j => by rw [passedDue_stream]) passedDue_freeList (List.append_nil _).symm rfl
    (fun m hm => ?_) ?_ (by simp), ?_, fun _ => ?_, fun e => ?_⟩
  · obtain ⟨m', hm', rfl⟩ := Option.map_eq_some_iff.mp hm
    exact ⟨m', hm', rfl, rfl⟩
  · rw [passedDue_desc_same, List.filterMap_nil, List.append_nil]
    exact Descriptor.heldPages_resolvePlay _ _ 1
  · refine hl.queue.replace (front := []) hq ⟨_, _, _, passedDue_stream i⟩
      (fun x hx => passedDue_desc_ne fun e => notThere (e ▸ hx)) (by rw [passedDue_desc_same]; exact ⟨rfl, rfl, rfl⟩)
      (fun hm => ?_) (fun x hx => by cases hx) fun x hx ha => ?_
    · rw [hl.queue.moving_of_eligible inQueue eligible] at hm
      cases hm
    · rw [passedDue_desc_same]
      exact ha.left (Nat.le_refl _) fun e => absurd (hd.symm.trans e) (by decide)
  · have flow := hl.play hd
    refine ⟨flow.silent, fun m hm => ?_, flow.four, fun x f _ _ => ?_, flow.closed⟩
    · rw [passedDue_liveMove flow hf] at hm
      cases hm
    · rw [passedDue_stream, hr]
      exact Nat.zero_le _
  · exact absurd (hd.symm.trans e) (by decide)

/-- The void mark that the due position's move takes is nothing to the other streams. -/
theorem passedDue_others (hp : s.PlacesOk) (hq : h ∈ (s.stream i).queue) {j : StreamNo} (hj : j ≠ i) :
    SameStream j s (s.passedDue i h) := by
  refine SameStream.of_stream (passedDue_stream j) (fun x hx => passedDue_desc_ne fun e => hp.disjoint hj hx (e ▸ hq)) ?_ fun hh => ?_
  · exact liveMove_voided (p := fun m => decide (m.stream = i) && decide (m.handle = h) && decide (m.position = (s.desc h).resolved)) rfl
      fun m hm e => by simp [e, hj] at hm
  · exact heldInFlight_voided (s := s) (t := s.passedDue i h)
      (p := fun m => decide (m.stream = i) && decide (m.handle = h) && decide (m.position = (s.desc h).resolved)) rfl rfl ▸ hh

end

/-! ### The event -/

section
variable {clock : StreamNo → FrameNo} {s : State} {i : StreamNo} {n : FrameNo}

/-- The ring loses its first entry and the counter passes N, with no position due (R73, R75). -/
theorem committed_parts {t : State} (hs : s.PartsOk clock) (hn : clock i = n) (hd : (s.stream i).direction = .play)
    (hst : ∃ c, t.stream i = { s.stream i with ring := (s.stream i).ring.tail, sounding := c }) (hcore : CoreFrame s t)
    (hi : t.inFlight = s.inFlight) (hj : ∀ j, j ≠ i → SameStream j s t)
    (hdue : ∀ h f, s.headFrame i = some (h, f) → f ≠ n) : t.PartsOk (Function.update clock i (n + 1)) := by
  obtain ⟨c, stream⟩ := hst
  have ok := hs.streams i
  rw [hn] at ok
  refine hs.advance (hcore.keeps hs.core) ⟨⟨ok.loose.queue.congr ⟨_, _, _, stream⟩ fun h _ => hcore.descs h, fun _ => ?_, fun e => ?_⟩,
    ok.rests.congr ⟨_, _, _, stream⟩ fun h _ => hcore.descs h⟩ hj
  · exact (ok.loose.play hd).commit (by rw [stream]) (by rw [stream]) (by rw [stream]) (fun e => by rw [stream] at e; exact e)
      (liveMove_congr hi i) (headFrame_congr (by rw [stream]) fun h _ => by rw [hcore.descs]) hcore.descs hdue
  · rw [stream] at e
    exact absurd (hd.symm.trans e) (by decide)

theorem commit_fields (st : Stream) : ∃ c, st.commit = { st with ring := st.ring.tail, sounding := c } := by
  unfold Stream.commit
  split
  · next e => exact ⟨st.sounding, by rw [e]; cases st; simp_all⟩
  · next e => exact ⟨_, by rw [e]; rfl⟩

theorem playEvent_parts {t : FrameTime} (hs : s.PartsOk clock) (hn : clock i = n) (ht : t.playN = n + 1)
    (hd : (s.stream i).direction = .play) : (s.playEvent i n t).PartsOk (Function.update clock i (n + 1)) := by
  have ok := hs.streams i
  rw [hn] at ok
  unfold State.playEvent
  split
  · next hm =>
    split
    · next hlead =>
      obtain ⟨c, hc⟩ := commit_fields (s.stream i)
      have queue : (s.stream i).commit.queue = (s.stream i).queue := by rw [hc]
      refine State.PartsOk.account (committed_parts hs hn hd ⟨c, (State.stream_modStream_same s i _).trans hc⟩
        (CoreFrame.modStream s i _ queue) rfl (fun j e => sameStream_modStream _ e) fun h f hf e => ?_) _ _ _
      rw [e] at hf
      have := (ok.loose.play hd).behind h n hf (by simp [inWindow, Config.ringWindow])
      rw [BitVec.sub_self] at this
      exact absurd hlead (Nat.not_lt.mpr this)
    · next hlead =>
      have ring : (s.stream i).ring = [] := List.length_eq_zero_iff.mp (Nat.eq_zero_of_not_pos hlead)
      split
      · next h hdue =>
        refine State.PartsOk.account ?_ _ _ _
        have hf := headFrame_of_dueHead hdue
        obtain ⟨⟨q, hq⟩, -⟩ := headFrame_some hf
        obtain ⟨core, loose⟩ := passedDue_keeps hs.core ok.loose hd hf ring
        obtain ⟨core', ok'⟩ := settleAt_keeps (fun _ => ht) core loose
        rw [resolveDue_eq]
        exact hs.advance core' ok' fun j e => (passedDue_others hs.core.places (by simp [hq]) e).trans
          ((settleAt_frame _ i t).sameStream core.places e)
      · next hdue =>
        refine State.PartsOk.account (committed_parts hs hn hd ⟨(s.stream i).sounding, ?_⟩ (CoreFrame.refl s) rfl (fun j _ => SameStream.refl j s)
          fun h f hf e => ?_) _ _ _
        · rw [ring, List.tail_nil, ← ring]
        · rw [e] at hf
          rw [dueHead_of_headFrame hf] at hdue
          cases hdue
  · next hm =>
    refine committed_parts hs hn hd ⟨(s.stream i).sounding, State.stream_modStream_same s i _⟩ (CoreFrame.modStream s i _ rfl) rfl
      (fun j e => sameStream_modStream _ e) fun h f hf => ?_
    exact absurd (ok.loose.queue.moving_of_headFrame hf) hm

end

end Sys2Proof.Machine

/-! ## The pools: a capture stream at a frame event -/

namespace Sys2Proof.Machine

/-! ### Positions are assigned or passed over -/

/-- The positions of descriptor `h` from `p` on, `n` of them. -/
def positionsFrom (h : Handle) (S : FrameNo) (p n : Nat) : List (Handle × Nat × FrameNo) :=
  (List.range n).map fun j => (h, p + j, frameOf S (p + j))

theorem positionsFrom_append (h : Handle) (S : FrameNo) (p m n : Nat) :
    positionsFrom h S p (m + n) = positionsFrom h S p m ++ positionsFrom h S (p + m) n := by
  rw [positionsFrom, List.range_add, List.map_append, List.map_map]
  congr 1
  exact List.map_congr_left fun j _ => by simp [Nat.add_assoc]

theorem zeroPositionsFrom_place (h : Handle) (S : FrameNo) (k : EntryKind) (p n : Nat) :
    (zeroPositionsFrom h S k p n).map BacklogEntry.place = positionsFrom h S p n := by
  rw [zeroPositionsFrom, List.map_map]
  rfl

theorem waitingAt_of_eligible {d : Descriptor} (he : d.eligible = true) (h : Handle) :
    d.waitingAt h = positionsFrom h (d.span.getD 0) d.resolved (d.assigned - d.resolved) := if_pos he

/-- From `s` to `t` the eligible capture descriptor `h` of stream `i` is assigned up to position `a`, and entries for its
new positions have joined the backlog (R40, R41). -/
structure Assigns (i : StreamNo) (h : Handle) (a : Nat) (s t : State) : Prop where
  desc : ∃ st, (st = (s.desc h).state ∨ st = .active) ∧ t.desc h = { s.desc h with state := st, assigned := a }
  others : ∀ x, x ≠ h → t.desc x = s.desc x
  stream : ∃ b c, t.stream i = { s.stream i with backlog := b, sounding := c } ∧
    b.map BacklogEntry.place = (s.stream i).backlog.map BacklogEntry.place ++
      positionsFrom h ((s.desc h).span.getD 0) (s.desc h).assigned (a - (s.desc h).assigned) ∧
    (∀ e ∈ b, ∀ xs, e.kind = .held xs → xs.length = (s.stream i).channels)
  held : t.heldCount i ≤ 4
  streams : ∀ j, j ≠ i → t.stream j = s.stream j
  freeList : t.freeList = s.freeList
  claims : t.claims = s.claims
  port : t.port = s.port
  inFlight : t.inFlight = s.inFlight

section
variable {n : FrameNo} {s t : State} {i : StreamNo} {h : Handle} {a : Nat}

theorem Assigns.eligible (ha : Assigns i h a s t) (he : (s.desc h).eligible = true) : (t.desc h).eligible = true := by
  obtain ⟨st, hst, e⟩ := ha.desc
  rw [e]
  rcases hst with rfl | rfl
  · exact he
  · rfl

theorem Assigns.ok (ha : Assigns i h a s t) (ho : (s.desc h).Ok) (he : (s.desc h).eligible = true) (h1 : (s.desc h).assigned ≤ a)
    (h2 : a ≤ (s.desc h).frames) : (t.desc h).Ok := by
  obtain ⟨st, hst, e⟩ := ha.desc
  rw [e]
  rcases hst with rfl | rfl
  · exact ho.assign he h1 h2
  · exact (ho.activated he).assign rfl h1 h2

theorem Assigns.keeps (ha : Assigns i h a s t) (hc : s.CoreOk) (hl : s.StreamLoose n i) (hd : (s.stream i).direction = .capture)
    (hq : h ∈ (s.stream i).queue) (he : (s.desc h).eligible = true) (hf : (s.desc h).assigned < (s.desc h).frames)
    (h1 : (s.desc h).assigned ≤ a) (h2 : a ≤ (s.desc h).frames) : t.CoreOk ∧ t.StreamLoose n i := by
  have eligible := ha.eligible he
  have ok := ha.ok (hc.descs h) he h1 h2
  obtain ⟨st, -, self⟩ := ha.desc
  obtain ⟨b, c, stream, places, samples⟩ := ha.stream
  obtain ⟨front, back, hsplit⟩ := List.append_of_mem hq
  have notThere := nodup_split (hsplit ▸ hc.places.once i)
  have kept : ∀ x ∈ front ++ back, t.desc x = s.desc x := fun x hx => ha.others x fun e => notThere (e ▸ hx)
  have notFull : (s.desc h).fullyAssigned = false := by
    rw [Descriptor.fullyAssigned, he, Bool.true_and, decide_eq_false_iff_not]
    exact Nat.not_le.mpr hf
  have queues : ∀ j, (t.stream j).queue = (s.stream j).queue := fun j => by
    by_cases e : j = i
    · rw [e, stream]
    · rw [ha.streams j e]
  have live := liveMove_congr ha.inFlight i
  refine ⟨hc.handOver (h := h) (ps := []) (cs := []) (Descriptor.live_of_eligible he) (Descriptor.live_of_eligible eligible)
    (by rw [self]) ok ha.others queues (ha.freeList.trans (List.append_nil _).symm) (ha.claims.trans (List.append_nil _).symm)
    (congrArg Port.outbound ha.port) (fun m hm => ⟨m, ha.inFlight ▸ hm, rfl, rfl⟩) (by rw [self]; rfl) (by simp), ?_, fun e => ?_, fun _ => ?_⟩
  · refine hl.queue.replace hsplit ⟨_, _, _, stream⟩ kept (by rw [self]; exact ⟨rfl, rfl, rfl⟩) (fun hm => ?_)
      (fun x hx hx' => ?_) fun x hx hx' => ?_
    · rw [hl.queue.moving_of_eligible hq he] at hm
      cases hm
    · refine hx'.right (.inl ?_) fun _ => he
      rw [Descriptor.stage_of_eligible he]
      exact Nat.zero_le _
    · refine hx'.left ?_ fun _ e => by rw [notFull] at e; cases e
      rw [Descriptor.stage_of_eligible eligible]
      exact Nat.zero_le _
  · rw [stream] at e
    exact absurd (hd.symm.trans e) (by decide)
  · have flow := hl.capture hd
    refine ⟨ha.held, by rw [stream]; exact flow.ring, fun m hm => ?_, ?_, by rw [stream]; exact samples⟩
    · rw [live] at hm
      rw [stream]
      exact flow.move m hm
    · have resolved := ((hc.descs h).capture (Descriptor.live_of_eligible he) ((hl.queue.own h hq).2.1.trans hd)).1
      have longer : a - (s.desc h).resolved = ((s.desc h).assigned - (s.desc h).resolved) + (a - (s.desc h).assigned) := by omega
      have waiting : (t.desc h).waitingAt h = (s.desc h).waitingAt h ++
          positionsFrom h ((s.desc h).span.getD 0) (s.desc h).assigned (a - (s.desc h).assigned) := by
        rw [waitingAt_of_eligible eligible, waitingAt_of_eligible he, self]
        dsimp only
        rw [longer, positionsFrom_append, Nat.add_sub_cancel' resolved]
      rw [live, stream]
      dsimp only
      rw [flatMap_waiting (hd ▸ hl.queue.order) hsplit notFull kept, waiting, places, ← List.append_assoc, flow.order,
        flatMap_waiting (t := s) (hd ▸ hl.queue.order) hsplit notFull fun _ _ => rfl, List.append_assoc]

/-- A queue at rest stays at rest when a descriptor that is not fully assigned is assigned a little further. -/
theorem Assigns.rests (ha : Assigns i h a s t) (hr : s.Rests i) (he : (s.desc h).eligible = true)
    (hf : (s.desc h).assigned < (s.desc h).frames) (h2 : a < (s.desc h).frames) : t.Rests i := by
  obtain ⟨st, hst, self⟩ := ha.desc
  obtain ⟨b, c, stream, -⟩ := ha.stream
  have eligible := ha.eligible he
  have same : ∀ x, (t.desc x).spent = (s.desc x).spent ∧ ((t.desc x).state = .ready ↔ (s.desc x).state = .ready) ∧
      (t.desc x).fullyAssigned = (s.desc x).fullyAssigned := fun x => by
    by_cases e : x = h
    · subst e
      refine ⟨?_, ?_, ?_⟩
      · rw [Descriptor.spent, Descriptor.spent, eligible, he, self]
      · constructor <;> intro e
        · rw [Descriptor.not_eligible_of_ready e] at eligible; cases eligible
        · rw [Descriptor.not_eligible_of_ready e] at he; cases he
      · rw [Descriptor.fullyAssigned, Descriptor.fullyAssigned, eligible, he, self, Bool.true_and, Bool.true_and]
        simp [Nat.not_le.mpr hf, Nat.not_le.mpr h2]
    · rw [ha.others x e]
      exact ⟨rfl, Iff.rfl, rfl⟩
  have capture : ∀ (q : List Handle) y, t.readyCapture y q = s.readyCapture y q := fun q => by
    induction q with
    | nil => exact fun y => rfl
    | cons x q ih => exact fun y => by simp only [State.readyCapture, (same x).2.1, (same x).2.2, ih]
  have play : ∀ q : List Handle, t.readyPlay q = s.readyPlay q := fun q => by
    cases q with
    | nil => rfl
    | cons x q => simp only [State.readyPlay, (same x).2.1]
  refine ⟨fun x hx => ?_, ?_⟩
  · rw [stream] at hx
    rw [(same x).1]
    exact hr.1 x hx
  · have next := hr.2
    have moving : (t.stream i).moving = (s.stream i).moving := by rw [stream]; rfl
    simp only [State.nextEligible, moving, capture, play] at next ⊢
    rw [stream]
    exact next

end

/-! ### One offer -/

/-- The state in which the positions of `h` before frame `f` are passed over (R41), with how many they are. -/
def State.passOver (s : State) (i : StreamNo) (h : Handle) (n : Nat) : State :=
  (s.modDesc h fun d => { d with assigned := (s.desc h).assigned + n }).modStream i fun st =>
    { st with backlog := st.backlog ++ zeroPositionsFrom h ((s.desc h).span.getD 0) .lostZero (s.desc h).assigned n }

/-- How many positions of `h` lie before the delivered frame `f`. -/
def State.passedCount (s : State) (h : Handle) (f : FrameNo) : Nat :=
  lateCount (frameOf ((s.desc h).span.getD 0) (s.desc h).assigned) f ((s.desc h).frames - (s.desc h).assigned)

theorem offer_succ (i : StreamNo) (t : FrameTime) (f : FrameNo) (xs : List Word32) (k : Nat) (s : State) :
    State.offer i t f xs (k + 1) s = match s.openDesc (s.stream i).queue with
      | none => (s, false)
      | some h =>
        let p := (s.desc h).assigned + s.passedCount h f
        let s1 := s.passOver i h (s.passedCount h f)
        if (s.desc h).frames ≤ p then State.offer i t f xs k (s1.settleAt i t)
        else if frameOf ((s.desc h).span.getD 0) p = f then ((s1.assign i h p f xs).settleAt i t, true)
        else (s1, false) := by
  rw [State.offer]
  rfl

theorem heldCount_of_backlog {s t : State} {i : StreamNo} {b : List BacklogEntry} {c : Bool}
    (hs : t.stream i = { s.stream i with backlog := b, sounding := c }) (hi : t.inFlight = s.inFlight) :
    t.heldCount i = b.countP (fun e => e.kind.isHeld) + (s.heldInFlight i).toNat := by
  rw [State.heldCount, heldInFlight_congr hi (by rw [hs]), hs]

section
variable {s : State} {i : StreamNo} {h : Handle}

theorem passOver_desc_same (n : Nat) : (s.passOver i h n).desc h = { s.desc h with assigned := (s.desc h).assigned + n } :=
  State.desc_modDesc_same s h fun d => { d with assigned := (s.desc h).assigned + n }

theorem passOver_desc_ne (n : Nat) {x : Handle} (hx : x ≠ h) : (s.passOver i h n).desc x = s.desc x :=
  State.desc_modDesc_ne s (fun d => { d with assigned := (s.desc h).assigned + n }) hx

theorem passOver_stream (n : Nat) : (s.passOver i h n).stream i = { s.stream i with
    backlog := (s.stream i).backlog ++ zeroPositionsFrom h ((s.desc h).span.getD 0) .lostZero (s.desc h).assigned n } :=
  State.stream_modStream_same (s.modDesc h _) i _

theorem passOver_stream_ne (n : Nat) {j : StreamNo} (hj : j ≠ i) : (s.passOver i h n).stream j = s.stream j :=
  State.stream_modStream_ne (s.modDesc h _) _ hj

theorem passOver_assigns (hl : s.CaptureFlow i) (n : Nat) :
    Assigns i h ((s.desc h).assigned + n) s (s.passOver i h n) := by
  refine ⟨⟨_, .inl rfl, passOver_desc_same n⟩, fun x => passOver_desc_ne n, ⟨_, _, passOver_stream n, ?_, fun e he xs hk => ?_⟩, ?_,
    fun j => passOver_stream_ne n, rfl, rfl, rfl, rfl⟩
  · rw [List.map_append, zeroPositionsFrom_place, Nat.add_sub_cancel_left]
  · rcases List.mem_append.mp he with he | he
    · exact hl.samples e he xs hk
    · rw [kind_of_mem_zeroPositionsFrom he] at hk
      cases hk
  · have held := hl.held
    rw [State.heldCount] at held
    rw [heldCount_of_backlog (passOver_stream n) rfl, countP_append_zero fun e he => by rw [kind_of_mem_zeroPositionsFrom he]; rfl]
    exact held

end

/-! ### An overrun -/

theorem convertOldestHeld_place (b : List BacklogEntry) :
    (convertOldestHeld b).map BacklogEntry.place = b.map BacklogEntry.place := by
  induction b with
  | nil => rfl
  | cons e b ih =>
    unfold convertOldestHeld
    split
    · rfl
    · rw [List.map_cons, List.map_cons, ih]

theorem convertOldestHeld_count {b : List BacklogEntry} (h : 0 < b.countP fun e => e.kind.isHeld) :
    (convertOldestHeld b).countP (fun e => e.kind.isHeld) + 1 = b.countP fun e => e.kind.isHeld := by
  induction b with
  | nil => cases h
  | cons e b ih =>
    unfold convertOldestHeld
    split
    · next he =>
      rw [List.countP_cons_of_pos (p := fun e : BacklogEntry => e.kind.isHeld) he, List.countP_cons_of_neg (p := fun e : BacklogEntry => e.kind.isHeld) (by simp [EntryKind.isHeld])]
    · next he =>
      rw [List.countP_cons_of_neg (p := fun e : BacklogEntry => e.kind.isHeld) he] at h ⊢
      rw [List.countP_cons_of_neg (p := fun e : BacklogEntry => e.kind.isHeld) he]
      exact ih h

theorem kind_of_mem_convertOldestHeld {b : List BacklogEntry} {e : BacklogEntry} (h : e ∈ convertOldestHeld b) :
    e ∈ b ∨ e.kind = .lostZero := by
  induction b with
  | nil => cases h
  | cons x b ih =>
    unfold convertOldestHeld at h
    split at h
    · rcases List.mem_cons.mp h with rfl | h
      · exact .inr rfl
      · exact .inl (List.mem_cons_of_mem _ h)
    · rcases List.mem_cons.mp h with rfl | h
      · exact .inl List.mem_cons_self
      · exact (ih h).imp_left (List.mem_cons_of_mem _)

/-- With at most five frames held an overrun leaves four (R79). -/
theorem overrun_spec {s : State} {i : StreamNo} (h : s.heldCount i ≤ 5) : ∃ b,
    s.overrun i = s.modStream i (fun st => { st with backlog := b }) ∧
    b.map BacklogEntry.place = (s.stream i).backlog.map BacklogEntry.place ∧
    (∀ e ∈ b, e ∈ (s.stream i).backlog ∨ e.kind = .lostZero) ∧
    b.countP (fun e => e.kind.isHeld) + (s.heldInFlight i).toNat ≤ 4 := by
  unfold State.overrun
  split
  · next hlt =>
    have hlt : 4 < s.heldCount i := hlt
    refine ⟨convertOldestHeld (s.stream i).backlog, rfl, convertOldestHeld_place _, fun e he => kind_of_mem_convertOldestHeld he, ?_⟩
    rw [State.heldCount] at h hlt
    have := Bool.toNat_le (s.heldInFlight i)
    have := convertOldestHeld_count (b := (s.stream i).backlog) (by omega)
    omega
  · next hge => exact ⟨(s.stream i).backlog, (State.modStream_self rfl).symm, rfl, fun e he => .inl he, Nat.not_lt.mp hge⟩

section
variable {s : State} {i : StreamNo} {h : Handle} {xs : List Word32} {f : FrameNo}

/-- The state in which a delivered frame has joined the backlog, before the test for an overrun. -/
def State.hold (s : State) (i : StreamNo) (h : Handle) (p : Nat) (f : FrameNo) (xs : List Word32) : State :=
  (s.modDesc h fun d => { d with state := .active, assigned := p + 1 }).modStream i fun st => { st with
    backlog := st.backlog ++ [{ handle := h, position := p, frame := f, kind := .held xs }]
    sounding := true }

theorem assign_eq (s : State) (i : StreamNo) (h : Handle) (p : Nat) (f : FrameNo) (xs : List Word32) :
    s.assign i h p f xs = (s.hold i h p f xs).overrun i := rfl

theorem hold_desc_same (s : State) (i : StreamNo) (h : Handle) (p : Nat) (f : FrameNo) (xs : List Word32) :
    (s.hold i h p f xs).desc h = { s.desc h with state := .active, assigned := p + 1 } :=
  State.desc_modDesc_same s h fun d => { d with state := .active, assigned := p + 1 }

theorem hold_desc_ne (s : State) (i : StreamNo) {h x : Handle} (p : Nat) (f : FrameNo) (xs : List Word32) (hx : x ≠ h) :
    (s.hold i h p f xs).desc x = s.desc x :=
  State.desc_modDesc_ne s (fun d => { d with state := .active, assigned := p + 1 }) hx

theorem hold_stream (s : State) (i : StreamNo) (h : Handle) (p : Nat) (f : FrameNo) (xs : List Word32) :
    (s.hold i h p f xs).stream i = { s.stream i with
      backlog := (s.stream i).backlog ++ [{ handle := h, position := p, frame := f, kind := .held xs }], sounding := true } :=
  State.stream_modStream_same (s.modDesc h _) i _

theorem assign_assigns (hl : s.CaptureFlow i) (hf : frameOf ((s.desc h).span.getD 0) (s.desc h).assigned = f)
    (hx : xs.length = (s.stream i).channels) :
    Assigns i h ((s.desc h).assigned + 1) s (s.assign i h (s.desc h).assigned f xs) := by
  have held : (s.hold i h (s.desc h).assigned f xs).heldCount i ≤ 5 := by
    have := hl.held
    rw [State.heldCount] at this
    rw [heldCount_of_backlog (hold_stream s i h _ f xs) rfl, List.countP_append, List.countP_singleton]
    change _ + 1 + _ ≤ 5
    omega
  obtain ⟨b, eq, places, kinds, four⟩ := overrun_spec held
  have inFlight : (s.hold i h (s.desc h).assigned f xs).heldInFlight i = s.heldInFlight i :=
    heldInFlight_congr rfl (by rw [hold_stream])
  rw [inFlight] at four
  rw [hold_stream] at places kinds
  rw [assign_eq, eq]
  have stream := State.stream_modStream_same (s.hold i h (s.desc h).assigned f xs) i fun st => { st with backlog := b }
  rw [hold_stream] at stream
  refine ⟨⟨.active, .inr rfl, hold_desc_same s i h _ f xs⟩, fun x hx => hold_desc_ne s i _ f xs hx, ⟨b, true, stream, ?_, fun e he ys hk => ?_⟩, ?_,
    fun j hj => ?_, rfl, rfl, rfl, rfl⟩
  · rw [places, List.map_append, Nat.add_sub_cancel_left, positionsFrom, List.range_one, List.map_cons, List.map_cons, Nat.add_zero, hf]
    rfl
  · rcases kinds e he with he | he
    · rcases List.mem_append.mp he with he | he
      · exact hl.samples e he ys hk
      · rw [List.mem_singleton.mp he] at hk
        cases hk
        exact hx
    · rw [he] at hk
      cases hk
  · rw [heldCount_of_backlog stream rfl]
    exact four
  · rw [State.stream_modStream_ne _ _ hj]
    exact State.stream_modStream_ne (s.modDesc h _) _ hj

end

/-! ### The event -/

section
variable {n : FrameNo} {i : StreamNo} {t : FrameTime} {f : FrameNo} {xs : List Word32}

theorem offer_keeps (k : Nat) {s : State} (hc : s.CoreOk) (ho : s.StreamOk n i) (hd : (s.stream i).direction = .capture)
    (hx : xs.length = (s.stream i).channels) :
    (State.offer i t f xs k s).1.CoreOk ∧ (State.offer i t f xs k s).1.StreamOk n i := by
  induction k generalizing s with
  | zero => exact ⟨hc, ho⟩
  | succ k ih =>
    rw [offer_succ]
    split
    · exact ⟨hc, ho⟩
    · next h hopen =>
      obtain ⟨hq, he, hlt⟩ := State.openDesc_mem hopen
      have passes := passOver_assigns (h := h) (ho.loose.capture hd) (s.passedCount h f)
      have few : s.passedCount h f ≤ (s.desc h).frames - (s.desc h).assigned := lateCount_le _ _ _
      obtain ⟨core, loose⟩ := passes.keeps hc ho.loose hd hq he hlt (Nat.le_add_right _ _) (by omega)
      have rests := fun hp => passes.rests ho.rests he hlt hp
      have eligible := passes.eligible he
      obtain ⟨st, -, self⟩ := passes.desc
      obtain ⟨b, c, stream, -⟩ := passes.stream
      dsimp only
      generalize s.passOver i h (s.passedCount h f) = u at core loose rests eligible self stream
      have capture : (u.stream i).direction = .capture := by rw [stream]; exact hd
      have notPlay : (u.stream i).direction = .play → t.playN = n := fun e => by rw [capture] at e; cases e
      split
      · obtain ⟨core', ok'⟩ := settleAt_keeps notPlay core loose
        obtain ⟨-, direction, -, -, -, -, map, -⟩ := (settleAt_frame u i t).opening
        refine ih core' ok' (direction.trans capture) ?_
        rw [Stream.channels, map, stream]
        exact hx
      · next hp =>
        have hp := Nat.not_le.mp hp
        split
        · next hf =>
          have assigned : (u.desc h).assigned = (s.desc h).assigned + s.passedCount h f := by rw [self]
          have frames : (u.desc h).frames = (s.desc h).frames := by rw [self]
          rw [← assigned] at hp ⊢
          have assigns := assign_assigns (s := u) (h := h) (f := f) (xs := xs) (loose.capture capture)
            (by rw [assigned, self]; exact hf) (by rw [stream]; exact hx)
          obtain ⟨core', loose'⟩ := assigns.keeps core loose capture (by rw [stream]; exact hq) eligible (by rw [frames]; exact hp)
            (Nat.le_succ _) (by rw [frames]; exact hp)
          obtain ⟨b', c', stream', -⟩ := assigns.stream
          exact settleAt_keeps (fun e => by rw [stream', capture] at e; cases e) core' loose'
        · exact ⟨core, loose, rests hp⟩

theorem captureEvent_parts {clock : StreamNo → FrameNo} {s : State} {W : Nat} {rx : RxFrame} (hs : s.PartsOk clock)
    (hd : (s.stream i).direction = .capture) : (s.captureEvent i W rx f t).PartsOk clock := by
  unfold State.captureEvent
  split
  · refine State.PartsOk.account ?_ _ _ _
    obtain ⟨core, ok⟩ := offer_keeps (t := t) (f := f) (xs := s.capturedSamples W rx (s.stream i)) ((s.stream i).queue.length + 1)
      hs.core (hs.streams i) hd (List.length_map _)
    exact hs.step (i := i) core ok fun j e => (offer_frame i t f _ _ s).sameStream hs.core.places e
  · exact hs

end

end Sys2Proof.Machine

/-! ## The pools: steps aside, and the frame event -/

namespace Sys2Proof.Machine

/-! ### The counters of the streams' domains -/

/-- From `s` to `t` every stream stays with its domain, and no counter moves. -/
structure ClockFrame (s t : State) : Prop where
  domains : ∀ d, (t.domain d).counter = (s.domain d).counter
  streams : ∀ i, (t.stream i).domain = (s.stream i).domain

namespace ClockFrame
variable {s t u : State}

theorem clock (a : ClockFrame s t) : t.clock = s.clock := by
  funext i
  rw [State.clock, a.streams, a.domains]
  rfl

theorem refl (s : State) : ClockFrame s s := ⟨fun _ => rfl, fun _ => rfl⟩

theorem trans (a : ClockFrame s t) (b : ClockFrame t u) : ClockFrame s u :=
  ⟨fun d => (b.domains d).trans (a.domains d), fun i => (b.streams i).trans (a.streams i)⟩

theorem of_eq (hs : ∀ i, (t.stream i).domain = (s.stream i).domain) (ha : t.domA = s.domA) (hb : t.domB = s.domB) :
    ClockFrame s t :=
  ⟨fun d => by
    cases d
    · exact congrArg Domain.counter ha
    · exact congrArg Domain.counter hb, hs⟩

theorem modStream (s : State) (i : StreamNo) {f : Stream → Stream} (hf : ∀ st, (f st).domain = st.domain) :
    ClockFrame s (s.modStream i f) :=
  of_eq (fun j => by rw [State.stream_modStream]; split <;> simp_all) rfl rfl

theorem raiseOnce (s : State) (c : Claim) : ClockFrame s (s.raiseOnce c) := ⟨fun d => by simp, fun i => by simp⟩

end ClockFrame

theorem EventFrame.clock {i : StreamNo} {s t : State} (a : EventFrame i s t) : ClockFrame s t :=
  .of_eq (fun j => by
    by_cases e : j = i
    · rw [e]; exact a.opening.2.2.2.2.2.2.2
    · rw [a.others j e]) a.domA a.domB

theorem QueueFrame.clock {i : StreamNo} {s t : State} (a : QueueFrame i s t) : ClockFrame s t := a.event.clock

/-! ### Steps aside -/

/-- The invariant without the ownership entries, each stream against its own domain's counter. -/
def State.AllOk (s : State) : Prop := s.PartsOk s.clock

theorem State.PartsOk.all {s t : State} (h : t.PartsOk s.clock) (hc : ClockFrame s t) : t.AllOk := by
  rw [State.AllOk, hc.clock]
  exact h

/-- From `s` to `t` nothing changes that the pools read but the counters. -/
structure Aside (s t : State) : Prop where
  core : CoreFrame s t
  streams : ∀ j, SameStream j s t

/-- From `s` to `t` nothing changes that the pools read. -/
structure Still (s t : State) : Prop where
  aside : Aside s t
  clock : ClockFrame s t

theorem Aside.parts {clock : StreamNo → FrameNo} {s t : State} (a : Aside s t) (hs : s.PartsOk clock) : t.PartsOk clock :=
  State.PartsOk.same hs a.core a.streams

theorem Still.keeps {s t : State} (a : Still s t) (hs : s.AllOk) : t.AllOk := State.PartsOk.all (a.aside.parts hs) a.clock

/-- Streams, descriptors, claims, pages and the move as they were. -/
theorem Aside.of_eq {s t : State} (hs : t.streams = s.streams) (hd : t.descs = s.descs) (hc : t.claims = s.claims)
    (hp : ∀ p, t.freeList.count p + t.entryPages.count p = s.freeList.count p + s.entryPages.count p)
    (hi : t.inFlight = s.inFlight) : Aside s t := by
  have streams : ∀ j, t.stream j = s.stream j := fun j => by rw [State.stream, hs]; rfl
  have descs : ∀ h, t.desc h = s.desc h := fun h => by rw [State.desc, hd]; rfl
  refine ⟨⟨descs, fun j => by rw [streams], by rw [hc], hp, fun m hm => ⟨m, hi ▸ hm, rfl, rfl⟩⟩, fun j => ?_⟩
  exact .of_stream (streams j) (fun h _ => descs h) (liveMove_congr hi j) fun e =>
    (heldInFlight_congr hi (congrArg Stream.generation (streams j))).symm.trans e

theorem Aside.modDomain (s : State) (d : DomainId) (f : Domain → Domain) : Aside s (s.modDomain d f) :=
  .of_eq (by simp) (by simp) (by simp) (fun _ => by simp [State.entryPages]) (by simp)

theorem Aside.trans {s t u : State} (a : Aside s t) (b : Aside t u) : Aside s u :=
  ⟨a.core.trans b.core, fun j => (a.streams j).trans (b.streams j)⟩

namespace Still
variable {s t u : State}

theorem refl (s : State) : Still s s := ⟨⟨.refl s, fun j => .refl j s⟩, .refl s⟩

theorem trans (a : Still s t) (b : Still t u) : Still s u := ⟨a.aside.trans b.aside, a.clock.trans b.clock⟩

/-- Streams, descriptors, claims, pages, the move and the counters as they were. -/
theorem of_eq (hs : t.streams = s.streams) (hd : t.descs = s.descs) (hc : t.claims = s.claims)
    (hp : ∀ p, t.freeList.count p + t.entryPages.count p = s.freeList.count p + s.entryPages.count p)
    (hi : t.inFlight = s.inFlight) (hn : ∀ d, (t.domain d).counter = (s.domain d).counter) : Still s t :=
  ⟨.of_eq hs hd hc hp hi, hn, fun j => by rw [State.stream, hs]; rfl⟩

/-- The port takes or gives up an entry without a page. -/
theorem modPort (s : State) {f : Port → Port} (hf : (f s.port).outbound.filterMap Entry.page = s.port.outbound.filterMap Entry.page) :
    Still s (s.modPort f) :=
  of_eq rfl rfl rfl (fun p => by rw [State.entryPages, State.modPort_port, hf]; rfl) rfl fun d => by simp

theorem modLane (s : State) (l : LaneNo) (f : Lane → Lane) : Still s (s.modLane l f) :=
  of_eq rfl rfl rfl (fun _ => rfl) rfl fun d => by simp

theorem mapLanesOf (s : State) (d : DomainId) (f : LaneNo → Lane → Lane) : Still s (s.mapLanesOf d f) :=
  of_eq (by simp) (by simp) (by simp) (fun _ => by simp [State.entryPages]) (by simp) fun d => by simp

theorem modDomain (s : State) (d : DomainId) {f : Domain → Domain} (hf : (f (s.domain d)).counter = (s.domain d).counter) :
    Still s (s.modDomain d f) := by
  refine ⟨.modDomain s d f, fun e => ?_, fun j => by simp⟩
  by_cases h : e = d
  · rw [h, State.domain_modDomain_same, hf]
  · rw [State.domain_modDomain_ne _ _ h]

theorem raiseOnce (s : State) {c : Claim} (hc : c.accounts = false) : Still s (s.raiseOnce c) :=
  ⟨⟨CoreFrame.raiseOnce s hc, fun j => sameStream_raiseOnce j s c⟩, ClockFrame.raiseOnce s c⟩

end Still

/-! ### Retiming -/

/-- Streams whose counter does not matter may be held against any. -/
theorem State.PartsOk.retime {clock clock' : StreamNo → FrameNo} {s : State} (hs : s.PartsOk clock)
    (h : ∀ i, clock' i = clock i ∨ (s.stream i).direction = .capture ∨ (s.stream i).state = .closed) : s.PartsOk clock' :=
  ⟨hs.core, fun i => by
    rcases h i with e | e | e
    · rw [e]; exact hs.streams i
    · exact (hs.streams i).capture_any e _
    · exact (hs.streams i).closed_any e _⟩

/-! ### One item of a frame event -/

theorem laneEvent_still (s : State) (l : LaneNo) (W : Nat) (rx : RxFrame) (f : FrameNo) : Still s (s.laneEvent l W rx f) := by
  unfold State.laneEvent
  dsimp only
  split
  · exact .modLane s l _
  · split
    · exact .modLane s l _
    · exact ((Still.modLane s l _).trans (.modLane _ l _)).trans (.raiseOnce _ rfl)

section
variable {clock : StreamNo → FrameNo} {s : State} {dom : Domain} {rx : RxFrame}

theorem itemEvent_stream_parts {i : StreamNo} (hs : s.PartsOk clock) (hn : clock i = dom.counter) :
    (State.itemEvent dom rx s (.stream i)).PartsOk (Function.update clock i (dom.counter + 1)) := by
  have direction := (itemEvent_stream_frame dom rx s i).opening.2.1
  cases hd : (s.stream i).direction with
  | play =>
    simp only [State.itemEvent, hd]
    exact playEvent_parts hs hn rfl hd
  | capture =>
    rw [hd] at direction
    have kept : (State.itemEvent dom rx s (.stream i)).PartsOk clock := by
      simp only [State.itemEvent, hd]
      split
      · exact captureEvent_parts hs hd
      · exact hs
    refine kept.retime fun j => ?_
    by_cases e : j = i
    · exact .inr (.inl (e ▸ direction))
    · exact .inl (Function.update_of_ne e _ _)

/-- The items of an event, each stream once: the streams among them have seen the counter advance. -/
theorem foldl_itemEvent_parts {xs : List Item} (hx : xs.Nodup) (hs : s.PartsOk clock) (hn : ∀ i, Item.stream i ∈ xs → clock i = dom.counter) :
    (xs.foldl (State.itemEvent dom rx) s).PartsOk fun j => if Item.stream j ∈ xs then dom.counter + 1 else clock j := by
  induction xs generalizing s clock with
  | nil => simpa using hs
  | cons x xs ih =>
    obtain ⟨hout, hrest⟩ := List.nodup_cons.mp hx
    cases x with
    | lane l =>
      have done := ih hrest ((laneEvent_still s l dom.width rx (dom.counter - 1)).aside.parts hs) fun i hi =>
        hn i (List.mem_cons_of_mem _ hi)
      exact done.retime fun j => .inl (by simp)
    | stream i =>
      have done := ih hrest (itemEvent_stream_parts (rx := rx) hs (hn i List.mem_cons_self)) fun j hj => by
        rw [Function.update_of_ne fun e : j = i => hout (e ▸ hj)]
        exact hn j (List.mem_cons_of_mem _ hj)
      refine done.retime fun j => .inl ?_
      by_cases e : j = i
      · simp [e, hout]
      · simp [e]

end

/-! ### The items -/

theorem mem_items_stream {s : State} {d : DomainId} {i : StreamNo} :
    Item.stream i ∈ s.items d ↔ (s.stream i).isOpen = true ∧ (s.stream i).domain = d := by
  unfold State.items
  split <;> simp

theorem items_nodup (s : State) (d : DomainId) : (s.items d).Nodup := by
  unfold State.items
  refine List.nodup_append.mpr ⟨?_, ?_, fun x hx y hy e => ?_⟩
  · exact ((List.nodup_finRange 12).filter _).map fun _ _ e => Item.stream.inj e
  · split
    · exact ((List.nodup_finRange 8).filter _).map fun _ _ e => Item.lane.inj e
    · exact List.nodup_nil
  · obtain ⟨i, -, rfl⟩ := List.mem_map.mp hx
    split at hy
    · obtain ⟨l, -, rfl⟩ := List.mem_map.mp hy
      cases e
    · cases hy

/-! ### The frame event -/

/-- The state in which a frame event finds its items: the transmit frames composed. -/
def State.sent (s : State) (d : DomainId) : State :=
  if (s.domain d).delivers then s.transmit d else (s.transmit d).mapLanesOf d fun _ ln => { ln with assembly := none }

/-- What a frame event does when its items are done: the counter advanced, gathering begun. -/
def State.advanced (s : State) (d : DomainId) : State :=
  let u := (s.modDomain d fun dm => { dm with counter := dm.counter + 1, delivers := true }).mapLanesOf d fun _ ln =>
    { ln with gathering := ln.rxEnable }
  { u with freeCount := u.freeCount + 1 }

/-- The items of a frame event in their order. -/
def State.order (s : State) (d : DomainId) : List Item := sortRanked (fun x => Config.rank s.freeCount x.number) (s.items d)

theorem frameEvent_eq (s : State) (d : DomainId) (rx : RxFrame) :
    s.frameEvent d rx = ((s.order d).foldl (State.itemEvent (s.domain d) rx) (s.sent d)).advanced d := rfl

theorem sent_still (s : State) (d : DomainId) : Still s (s.sent d) := by
  unfold State.sent State.transmit
  split
  · exact .mapLanesOf s d _
  · exact (Still.mapLanesOf s d _).trans (.mapLanesOf _ d _)

/-- The model's own counter is nothing to the pools. -/
theorem freeCount_aside (s : State) (n : Nat) : Aside s { s with freeCount := n } := .of_eq rfl rfl rfl (fun _ => rfl) rfl

theorem advanced_aside (s : State) (d : DomainId) : Aside s (s.advanced d) := by
  unfold State.advanced
  exact ((Aside.modDomain s d _).trans (Still.mapLanesOf _ d _).aside).trans (freeCount_aside _ _)

theorem Aside.domain {s t : State} (a : Aside s t) (j : StreamNo) : (t.stream j).domain = (s.stream j).domain := by
  obtain ⟨_, _, _, h⟩ := (a.streams j).context
  rw [h]

theorem advanced_domain_same (s : State) (d : DomainId) : ((s.advanced d).domain d).counter = (s.domain d).counter + 1 := by
  cases d <;> rfl

theorem advanced_domain_ne (s : State) {d e : DomainId} (h : e ≠ d) : (s.advanced d).domain e = s.domain e := by
  cases d <;> cases e
  case a.a | b.b => exact absurd rfl h
  all_goals rfl

theorem itemEvent_clock (dom : Domain) (rx : RxFrame) (s : State) (x : Item) : ClockFrame s (State.itemEvent dom rx s x) := by
  cases x with
  | stream i => exact (itemEvent_stream_frame dom rx s i).clock
  | lane l => exact (laneEvent_still s l dom.width rx (dom.counter - 1)).clock

theorem foldl_itemEvent_clock (dom : Domain) (rx : RxFrame) (xs : List Item) (s : State) :
    ClockFrame s (xs.foldl (State.itemEvent dom rx) s) := by
  induction xs generalizing s with
  | nil => exact .refl s
  | cons x xs ih => exact (itemEvent_clock dom rx s x).trans (ih _)

theorem mem_order {s : State} {d : DomainId} {x : Item} : x ∈ s.order d ↔ x ∈ s.items d :=
  (sortRanked_perm _ _).mem_iff

theorem frameEvent_keeps {s : State} {d : DomainId} {rx : RxFrame} (hs : s.AllOk) : (s.frameEvent d rx).AllOk := by
  have sent := (sent_still s d).aside.parts hs
  have nodup : (s.order d).Nodup := (sortRanked_perm _ _).nodup_iff.mpr (items_nodup s d)
  have onDomain : ∀ i, Item.stream i ∈ s.order d → s.clock i = (s.domain d).counter := fun i hi => by
    rw [State.clock, (mem_items_stream.mp (mem_order.mp hi)).2]
  have done := (advanced_aside _ d).parts (foldl_itemEvent_parts (rx := rx) nodup sent onDomain)
  have clock := (sent_still s d).clock.trans (foldl_itemEvent_clock (s.domain d) rx (s.order d) (s.sent d))
  rw [← frameEvent_eq] at done
  refine done.retime fun i => ?_
  have domain : ((s.frameEvent d rx).stream i).domain = (s.stream i).domain := by
    rw [frameEvent_eq]
    exact ((advanced_aside _ d).domain i).trans (clock.streams i)
  have shape := Stream.shape_eq_iff.mp ((frameEvent_ownership s d rx).streams i)
  by_cases hd : (s.stream i).domain = d
  · have counter : (s.frameEvent d rx).clock i = (s.domain d).counter + 1 := by
      rw [State.clock, domain, hd, frameEvent_eq, advanced_domain_same, clock.domains]
    by_cases ho : (s.stream i).isOpen = true
    · exact .inl (counter.trans (if_pos (mem_order.mpr (mem_items_stream.mpr ⟨ho, hd⟩))).symm)
    · exact .inr (.inr (by simpa [Stream.isOpen] using shape.1.trans (Bool.eq_false_iff.mpr ho)))
  · have out : Item.stream i ∉ s.order d := fun hi => hd (mem_items_stream.mp (mem_order.mp hi)).2
    refine .inl ?_
    rw [if_neg out, State.clock, domain, frameEvent_eq, advanced_domain_ne _ hd, clock.domains]
    rfl

end Sys2Proof.Machine

/-! ## The pools: the other commands -/

namespace Sys2Proof.Machine

/-! ### Replies and the port -/

/-- An entry without a page joins the outbound queue. -/
theorem appendEntry_still (s : State) {b : EntryBody} (hb : ∀ c, b ≠ .report (.data c)) : Still s (s.appendEntry b) := by
  have noPage : ∀ q x y, Entry.page { seq := q, body := b, sent := x, carried := y } = none := fun _ _ _ => by
    unfold Entry.page
    split
    · next c e => exact absurd e (hb c)
    · rfl
  refine .modPort s ?_
  rw [List.filterMap_append, List.filterMap_cons, noPage, List.filterMap_nil, List.append_nil]

theorem reply_still (s : State) (r : Request) (st : Status) (b : ReplyBody) : Still s (s.reply r st b) :=
  appendEntry_still s fun _ e => by cases e

/-- Marks on outbound entries leave their pages. -/
theorem filterMap_page_map {f : Entry → Entry} (hf : ∀ e, (f e).body = e.body) (es : List Entry) :
    (es.map f).filterMap Entry.page = es.filterMap Entry.page := by
  rw [List.filterMap_map]
  congr 1
  funext e
  simp only [Function.comp, Entry.page, hf]

theorem settleOutbound_pages (p : Port) (c : Option (BitVec 8)) :
    (p.settleOutbound c).outbound.filterMap Entry.page = p.outbound.filterMap Entry.page := by
  cases c with
  | none => rfl
  | some q => exact filterMap_page_map (fun e => by split <;> rfl) _

theorem dueCheck_pages (p : Port) (good : Bool) :
    (p.dueCheck good).outbound.filterMap Entry.page = p.outbound.filterMap Entry.page := by
  unfold Port.dueCheck
  split
  · rfl
  · split
    · exact filterMap_page_map (f := fun e => { e with sent := false }) (fun _ => rfl) _
    · rfl

theorem acknowledge_still (s : State) (a : BitVec 8) : Still s (s.acknowledge a) := by
  unfold State.acknowledge
  split
  · exact .refl s
  · next gone left h =>
    refine .of_eq rfl rfl rfl (fun p => ?_) rfl fun d => by cases d <;> rfl
    change (s.freeList ++ gone.filterMap Entry.page).count p + (left.filterMap Entry.page).count p =
      s.freeList.count p + (s.port.outbound.filterMap Entry.page).count p
    rw [(splitAck_some h).1, List.filterMap_append, List.count_append, List.count_append]
    omega

theorem dealRequest_still (s : State) (seq kind : Byte) (payload : List Byte) : Still s (s.dealRequest seq kind payload).1 := by
  unfold State.dealRequest
  split
  · exact .refl s
  · split
    · exact .refl s
    · split
      · split
        · exact .modPort s (f := fun p => { p with
            inbound := p.inbound ++ [{ seq := seq, kind := kind, payload := payload }], lastIn := seq }) rfl
        · exact .refl s
      · exact .refl s

theorem endExchange_still (s : State) (f : OutFrame) (sdi : List Byte) : Still s (s.endExchange f sdi) := by
  have due : ∀ (u : State) (good : Bool) (c : Option (BitVec 8)), Still u (u.modPort fun p => (p.dueCheck good).setDue c) :=
    fun u good c => .modPort u (dueCheck_pages u.port good)
  have inbound : ∀ (u : State) (c : Option (BitVec 8)) (fr : Inbound), Still u (u.settleInbound c fr).1 := fun u c fr => by
    cases fr with
    | noFrame => exact due u false c
    | bad => exact due u false c
    | good seq ack kind payload =>
      exact ((acknowledge_still u ack).trans (due _ true c)).trans (dealRequest_still _ seq kind payload)
  unfold State.endExchange
  exact ((Still.modPort s (settleOutbound_pages s.port _)).trans (inbound _ _ _)).trans (.modPort _ rfl)

/-! ### Resets -/

theorem blank_ok : Descriptor.blank.Ok := by
  have free : Descriptor.blank.state = .free := rfl
  refine ⟨fun _ => rfl, fun e => absurd rfl e, ⟨fun _ => ⟨rfl, rfl⟩, fun e => by cases e⟩, ?_, ?_, ?_, ?_, ?_, ?_, ?_, ?_⟩ <;>
    intro e <;> simp [free, DescState.live, Descriptor.eligible] at e

/-- Nothing queued, nothing accounted for, and the pages free or in outbound entries. -/
theorem coreOk_of_empty {t : State} (hd : ∀ h, t.desc h = Descriptor.blank) (hq : ∀ i, (t.stream i).queue = [])
    (hc : t.claims.filter Claim.accounts = []) (hp : (t.freeList ++ t.entryPages).Perm (List.finRange 256))
    (hk : ∀ m ∈ t.inFlight, m.kind.isSome = true ↔ m.direction = .capture) : t.CoreOk := by
  have noAccount : ∀ c ∈ t.claims, c.accounts = false := fun c hmem => by
    simpa using List.filter_eq_nil_iff.mp hc c hmem
  have noDone : ∀ h, Claim.done h ∉ t.claims := fun h hm => by cases noAccount _ hm
  have claimPages : t.claims.filterMap Claim.page = [] := by rw [← claimPages_filter, hc]; rfl
  have descPages : ((List.finRange 48).flatMap fun h => (t.desc h).heldPages) = [] :=
    List.flatMap_eq_nil_iff.mpr fun h _ => by rw [hd]; rfl
  refine ⟨⟨fun h i => ?_, fun i => by rw [hq]; exact List.nodup_nil, fun h => ?_, fun h => ?_⟩, fun h => by rw [hd]; exact blank_ok, ?_, ?_, hk⟩
  · rw [hq, hd]
    exact ⟨fun e => (by cases e), fun e => (by cases e.1)⟩
  · rw [hd]
    exact ⟨fun e => absurd e (noDone h), fun e => (by cases e)⟩
  · rw [List.count_eq_zero.mpr (noDone h)]
    exact Nat.zero_le 1
  · rw [State.PagesOk, State.holdings, claimPages, descPages, List.append_nil, List.append_nil]
    exact hp
  · refine ⟨?_, fun x hx => by cases noAccount _ hx⟩
    rw [dataBeforeDone_iff, ← behind_filter, hc]
    exact .nil

/-- Every stream CLOSED and empty, and no live move. -/
theorem allOk_of_empty {t : State} (hc : t.CoreOk) (hs : ∀ i, (t.stream i).state = .closed ∧ (t.stream i).queue = [] ∧
    (t.stream i).backlog = [] ∧ (t.stream i).ring = []) (hl : ∀ i, t.liveMove i = none) : t.AllOk :=
  ⟨hc, fun i => by
    obtain ⟨closed, queue, backlog, ring⟩ := hs i
    exact streamOk_of_empty queue (by rw [closed]; decide) backlog (hl i) (by rw [ring]; exact Nat.zero_le 4) fun _ => ring⟩

theorem fullReset_allOk (s : State) (cause : ResetCause) (lv : LineLevel) (csnLow : Bool) : (s.fullReset cause lv csnLow).AllOk := by
  have stream : ∀ i, (s.fullReset cause lv csnLow).stream i = (s.stream i).fullReset := fun i => s.stream_mapStreams Stream.fullReset i
  have desc : ∀ h, (s.fullReset cause lv csnLow).desc h = Descriptor.blank := fun h => Vector.getElem_replicate ..
  have entries : (s.fullReset cause lv csnLow).entryPages = [] := rfl
  have free : (s.fullReset cause lv csnLow).freeList = List.finRange 256 := by simp only [State.fullReset]
  refine allOk_of_empty (coreOk_of_empty desc (fun i => by rw [stream]; rfl) ?_ ?_ fun m hm => by cases hm)
    (fun i => by rw [stream]; exact ⟨rfl, rfl, rfl, rfl⟩) (liveMove_idle rfl)
  · cases lv <;> rfl
  · exact .of_eq ((congrArg₂ _ free entries).trans (List.append_nil _))

/-- No page stands twice in the outbound entries (R53). -/
theorem State.PagesOk.entryPages_nodup {s : State} (h : s.PagesOk) : s.entryPages.Nodup :=
  (List.nodup_append.mp (h.nodup_iff.mpr (List.nodup_finRange 256))).2.1

theorem streamsReset_allOk {s : State} (hs : s.CoreOk) : s.streamsReset.AllOk := by
  have stream : ∀ i, s.streamsReset.stream i = (s.stream i).streamsReset := fun i => s.stream_mapStreams Stream.streamsReset i
  have desc : ∀ h, s.streamsReset.desc h = Descriptor.blank := fun h => Vector.getElem_replicate ..
  refine allOk_of_empty (coreOk_of_empty desc (fun i => by rw [stream]; rfl) ?_ ?_ fun m hm => ?_)
    (fun i => by rw [stream]; exact ⟨rfl, rfl, rfl, rfl⟩) fun i => ?_
  · change (s.claims.filter Claim.staysThroughStreamsReset).filter Claim.accounts = []
    rw [List.filter_filter]
    exact List.filter_eq_nil_iff.mpr fun c _ => by cases c <;> simp [Claim.accounts, Claim.staysThroughStreamsReset]
  · change ((List.finRange 256).filter (fun p => p ∉ s.entryPages) ++ s.entryPages).Perm _
    refine (List.perm_ext_iff_of_nodup (List.nodup_append.mpr ⟨(List.nodup_finRange 256).filter _, hs.pages.entryPages_nodup,
      fun p hp q hq e => ?_⟩) (List.nodup_finRange 256)).mpr fun p => ?_
    · exact of_decide_eq_true (List.mem_filter.mp hp).2 (e ▸ hq)
    · simp [em']
  · obtain ⟨m', hm', rfl⟩ := Option.map_eq_some_iff.mp hm
    exact hs.kinds m' hm'
  · rw [State.liveMove, show s.streamsReset.inFlight = s.inFlight.map fun m => { m with void := true } from rfl]
    cases s.inFlight with
    | none => rfl
    | some m => exact if_neg fun e => by cases e.2

/-! ### Domains -/

theorem lockTransition_still (s : State) (d : DomainId) : Still s (s.lockTransition d) := by
  unfold State.lockTransition State.breakAssemblies
  exact ((Still.modDomain s d rfl).trans (.mapLanesOf _ d _)).trans (.raiseOnce _ rfl)

theorem loseLock_still (s : State) (d : DomainId) (measuring : Bool) : Still s (s.loseLock d measuring) := by
  unfold State.loseLock State.stopLanes
  exact ((Still.modDomain s d rfl).trans (lockTransition_still _ d)).trans (.mapLanesOf _ d _)

theorem gainLock_keeps {s : State} {d : DomainId} {rx : RxFrame} (hs : s.AllOk) : (s.gainLock d rx).AllOk :=
  frameEvent_keeps (((Still.modDomain s d rfl).trans (lockTransition_still _ d)).keeps hs)

theorem goodFrameClosed_keeps {s : State} {d : DomainId} {duration : Nat} {rx : RxFrame} (hs : s.AllOk) :
    (s.goodFrameClosed d duration rx).AllOk := by
  have timed := (Still.modDomain s d (f := fun dm => { dm with lastGood := some duration }) rfl).keeps hs
  unfold State.goodFrameClosed
  dsimp only
  split
  · exact frameEvent_keeps timed
  · exact hs
  all_goals
    split
    · exact gainLock_keeps timed
    · exact (Still.modDomain _ d rfl).keeps timed

theorem badFrameClosed_still (s : State) (d : DomainId) : Still s (s.badFrameClosed d) := by
  unfold State.badFrameClosed
  split
  · exact loseLock_still s d true
  · exact .refl s
  all_goals exact .modDomain s d rfl

/-- What SET DOMAIN does behind the new configuration. -/
theorem setDomain_rest_still (s : State) (d : DomainId) (c : DomainConfig) :
    Still (s.modDomain d fun dm => dm.configure c) (s.setDomain d c) := by
  unfold State.setDomain State.breakAssemblies State.stopLanes
  dsimp only
  split
  · exact ((Still.mapLanesOf _ d _).trans (.mapLanesOf _ d _)).trans (lockTransition_still _ d)
  · exact (Still.mapLanesOf _ d _).trans (.mapLanesOf _ d _)

/-- A domain that owns no position is the domain of no open stream (R4, R89). -/
theorem closed_of_not_owned {s : State} {d : DomainId} {i : StreamNo} (ho : s.OwnersOk) (hd : s.domainOwned d = false)
    (hi : (s.stream i).domain = d) : (s.stream i).state = .closed := by
  by_contra hopen
  have hopen : (s.stream i).isOpen = true := decide_eq_true hopen
  have fit := ho.fits i hopen
  obtain ⟨e, he⟩ := List.exists_mem_of_length_pos fit.map.1
  have owned : s.domainOwned d = true := List.any_eq_true.mpr ⟨e.1, List.mem_finRange _, by
    simp [(fit.lanes e he).1, hi, laneOwned_of_mapped ho hopen he]⟩
  rw [hd] at owned
  cases owned

theorem setDomain_keeps {s : State} {d : DomainId} (c : DomainConfig) (hs : s.AllOk) (ho : s.OwnersOk) (hd : s.domainOwned d = false) :
    (s.setDomain d c).AllOk := by
  refine (setDomain_rest_still s d c).keeps (((Aside.modDomain s d _).parts hs).retime fun i => ?_)
  have stream : (s.modDomain d fun dm => dm.configure c).stream i = s.stream i := by simp
  by_cases e : (s.stream i).domain = d
  · exact .inr (.inr (by rw [stream]; exact closed_of_not_owned ho hd e))
  · refine .inl ?_
    rw [State.clock, stream, State.domain_modDomain_ne _ _ e]
    rfl

/-! ### The override line -/

theorem muteInFlight_still (s : State) : Still s s.muteInFlight := by
  refine ⟨⟨{ CoreFrame.refl s with kinds := fun m hm => ?_ }, fun j => .of_stream rfl (fun _ _ => rfl) ?_ fun e => ?_⟩,
    .of_eq (fun _ => rfl) rfl rfl⟩
  · obtain ⟨m', hm', rfl⟩ := Option.map_eq_some_iff.mp hm
    exact ⟨m', hm', rfl, rfl⟩
  · rw [State.liveMove, State.muteInFlight, State.liveMove]
    cases s.inFlight <;> rfl
  · rw [State.heldInFlight, State.muteInFlight] at e
    rw [State.heldInFlight]
    cases hm : s.inFlight with
    | none => rw [hm] at e; cases e
    | some m => rw [hm] at e; exact e

theorem setOverride_still (s : State) (o : OverrideUnit) : Still s { s with ovr := o } :=
  .of_eq rfl rfl rfl (fun _ => rfl) rfl fun d => by cases d <;> rfl

/-! ### CONVERSION -/

theorem retired_pages {s : State} (hs : s.CoreOk) {h : Handle} (hr : (s.desc h).state = .retired) : (s.desc h).heldPages = [] :=
  List.drop_eq_nil_of_le ((hs.descs h).retired hr).2.2.1.ge

section
variable {s : State} {rest : List Claim}

/-- The head claim leaves, the DATA claims and accounts behind it keep their order. -/
theorem dataOk_tail {c : Claim} (hs : s.DataOk) (hc : s.claims = c :: rest) {t : State} (ht : t.claims = rest) : t.DataOk := by
  have order := (dataBeforeDone_iff _).mp hs.order
  rw [hc] at order
  refine ⟨?_, fun x hx => hs.count x ?_⟩
  · rw [ht]
    exact (dataBeforeDone_iff _).mpr order.of_cons
  · rw [ht] at hx
    rw [hc]
    exact List.mem_cons_of_mem _ hx

theorem convert_done_keeps {h : Handle} (hs : s.AllOk) (hc : s.claims = .done h :: rest) : (s.convert (.done h) rest).AllOk := by
  have claimed : Claim.done h ∈ s.claims := by simp [hc]
  have retired := (hs.core.places.retired h).mp claimed
  have once : Claim.done h ∉ rest := fun hm => by
    have := hs.core.places.doneOnce h
    rw [hc, List.count_cons_self] at this
    have := List.count_pos_iff.mpr hm
    omega
  have self : (({ s with claims := rest } : State).modDesc h fun _ => Descriptor.blank).desc h = Descriptor.blank :=
    State.desc_modDesc_same _ h _
  have other : ∀ x, x ≠ h → (({ s with claims := rest } : State).modDesc h fun _ => Descriptor.blank).desc x = s.desc x :=
    fun x hx => State.desc_modDesc_ne _ _ hx
  have notQueued : ∀ i, h ∉ (s.stream i).queue := fun i hq => by
    have := ((hs.core.places.queued h i).mp hq).1
    rw [retired] at this
    cases this
  have same : ∀ i, SameStream i s (({ s with claims := rest } : State).modDesc h fun _ => Descriptor.blank) := fun i =>
    .of_stream rfl (fun x hx => other x fun e => notQueued i (e ▸ hx)) rfl id
  refine (appendEntry_still _ fun _ e => by cases e).keeps (State.PartsOk.all (s := s) ⟨?_, fun i => (same i).streamOk (hs.streams i)⟩
    (.of_eq (fun _ => rfl) rfl rfl))
  refine ⟨⟨fun x i => ?_, hs.core.places.once, fun x => ?_, fun x => ?_⟩, fun x => ?_, ?_, dataOk_tail hs.core.data hc rfl, hs.core.kinds⟩
  · by_cases e : x = h
    · rw [e, State.handOn, self]
      exact ⟨fun hq => absurd hq (notQueued i), fun hq => by cases hq.1⟩
    · rw [State.handOn, other x e]
      exact hs.core.places.queued x i
  · by_cases e : x = h
    · rw [e, State.handOn, self]
      exact ⟨fun hm => absurd hm once, fun hm => by cases hm⟩
    · rw [State.handOn, other x e, ← hs.core.places.retired x, hc, List.mem_cons]
      exact ⟨.inr, fun hm => hm.resolve_left fun e' => e (Claim.done.inj e')⟩
  · have := hs.core.places.doneOnce x
    rw [hc] at this
    exact Nat.le_trans (List.count_le_count_cons) this
  · by_cases e : x = h
    · rw [e, State.handOn, self]; exact blank_ok
    · rw [State.handOn, other x e]; exact hs.core.descs x
  · refine State.PagesOk.change (h := h) hs.core.pages other fun p => ?_
    have claims : s.claimPages = State.claimPages { s with claims := rest } := by rw [State.claimPages, hc]; rfl
    rw [State.handOn, self, retired_pages hs.core retired, claims]
    rfl

theorem convert_data_keeps {x : DataClaim} (hs : s.AllOk) (hc : s.claims = .data x :: rest) : (s.convert (.data x) rest).AllOk := by
  have same : ∀ i, SameStream i s (s.convert (.data x) rest) := fun i => .of_stream rfl (fun _ _ => rfl) rfl id
  refine State.PartsOk.all (s := s) ⟨?_, fun i => (same i).streamOk (hs.streams i)⟩ (.of_eq (fun _ => rfl) rfl rfl)
  have claims : (s.convert (.data x) rest).claims = rest := rfl
  refine ⟨⟨hs.core.places.queued, hs.core.places.once, fun h => ?_, fun h => ?_⟩, hs.core.descs, ?_,
    dataOk_tail hs.core.data hc claims, hs.core.kinds⟩
  · have := hs.core.places.retired h
    rw [hc] at this
    rw [claims]
    exact (by simp : Claim.done h ∈ rest ↔ Claim.done h ∈ Claim.data x :: rest).trans this
  · have := hs.core.places.doneOnce h
    rw [hc] at this
    exact Nat.le_trans List.count_le_count_cons this
  · refine State.PagesOk.change (h := 0) hs.core.pages (fun _ _ => rfl) fun p => ?_
    have entries : (s.convert (.data x) rest).entryPages = s.entryPages ++ [x.page] := List.filterMap_append
    have before : s.claimPages = x.page :: (s.convert (.data x) rest).claimPages := by rw [State.claimPages, hc]; rfl
    have one : ∀ l : List PageNo, (x.page :: l).count p = l.count p + [x.page].count p := fun l => by
      rw [← List.singleton_append, List.count_append, Nat.add_comm]
    rw [entries, before, List.count_append, one (s.convert (.data x) rest).claimPages]
    change ((s.desc 0).heldPages.count p + s.freeList.count p + (s.convert (.data x) rest).claimPages.count p) + _ = _
    omega

/-- What a claim that accounts for no descriptor and no page hands on is nothing to the pools. -/
theorem handOn_still (s : State) {c : Claim} (ha : c.accounts = false) : Still s (s.handOn c) := by
  unfold State.handOn
  cases c with
  | done h => cases ha
  | data x => cases ha
  | streamEvent i =>
    exact ⟨⟨CoreFrame.modStream s i _ rfl, sameStream_accounting ⟨_, _, _, rfl⟩⟩, ClockFrame.modStream s i fun _ => rfl⟩
  | streamDetached i g r => exact .refl s
  | domainEvent d => exact .modDomain s d rfl
  | overrideEvent => exact setOverride_still s _
  | marker l => exact .modLane s l _

/-- A claim that accounts for no descriptor and no page is nothing to the pools. -/
theorem convert_other_still {c : Claim} (hc : s.claims = c :: rest) (ha : c.accounts = false) : Still s (s.convert c rest) := by
  have dropped : Still s { s with claims := rest } :=
    ⟨⟨{ CoreFrame.refl s with claims := by rw [hc, List.filter_cons_of_neg (by simp [ha])] },
      fun _ => .of_stream rfl (fun _ _ => rfl) rfl id⟩, .of_eq (fun _ => rfl) rfl rfl⟩
  unfold State.convert
  refine dropped.trans ((handOn_still _ ha).trans (appendEntry_still _ fun x e => ?_))
  cases c <;> simp [State.reportOf, Claim.accounts] at e ha

theorem convert_keeps {c : Claim} (hs : s.AllOk) (hc : s.claims = c :: rest) : (s.convert c rest).AllOk := by
  cases c with
  | done h => exact convert_done_keeps hs hc
  | data x => exact convert_data_keeps hs hc
  | streamEvent i => exact (convert_other_still hc rfl).keeps hs
  | streamDetached i g r => exact (convert_other_still hc rfl).keeps hs
  | domainEvent d => exact (convert_other_still hc rfl).keeps hs
  | overrideEvent => exact (convert_other_still hc rfl).keeps hs
  | marker l => exact (convert_other_still hc rfl).keeps hs

end

end Sys2Proof.Machine

/-! ## Every command keeps the pools (chapters 1 to 4) -/

namespace Sys2Proof.Machine

/-! ### Requests -/

/-- A request taken, refused or acted on: the act alone has something to keep. -/
theorem takeKind_allOk {s : State} {k : Kind} {sel : Request → Bool} {act : Request → State → State} (ho : s.OwnersOk) (hs : s.AllOk)
    (hact : ∀ r u, u.OwnersOk → u.AllOk → (act r u).AllOk) : (s.takeKind k sel act).AllOk := by
  have owners : ∀ rest, (s.modPort fun p => { p with inbound := rest }).OwnersOk := fun rest =>
    ((OwnershipFrame.refl s).modPort _).keeps ho
  have taken : ∀ rest, (s.modPort fun p => { p with inbound := rest }).AllOk := fun rest =>
    (Still.modPort s (f := fun p => { p with inbound := rest }) rfl).keeps hs
  rcases State.takeKind_cases s k sel act with h | ⟨r, rest, -, -, -, ⟨-, h⟩ | ⟨-, h⟩⟩
  · rw [h]; exact hs
  · rw [h, ← State.reply_taken]; exact (reply_still _ _ _ _).keeps (taken rest)
  · rw [h]; exact hact r _ (owners rest) (taken rest)

theorem takeKind_answer_allOk {α : Type} {s : State} {k : Kind} {sel : Request → Bool} {check : State → List Byte → Except Status α}
    {act : Request → State → α → State} (ho : s.OwnersOk) (hs : s.AllOk)
    (hact : ∀ r u x, u.OwnersOk → u.AllOk → check u r.payload = .ok x → (act r u x).AllOk) :
    (s.takeKind k sel fun r u => u.answer k r (check u r.payload) (act r u)).AllOk :=
  takeKind_allOk ho hs fun r u hou hu => by
    cases hc : check u r.payload with
    | error st => exact (reply_still u r st _).keeps hu
    | ok x => exact hact r u x hou hu hc

theorem reply_allOk {s : State} (hs : s.AllOk) (r : Request) (st : Status) (b : ReplyBody) : (s.reply r st b).AllOk :=
  (reply_still s r st b).keeps hs

/-! ### The counters stay -/

section
variable {s : State} {i : StreamNo}

theorem startStream_clock : ClockFrame s (s.startStream i) :=
  (ClockFrame.modStream s i (f := Stream.started) fun _ => rfl).trans (settleAt_frame _ i _).clock

theorem drain_clock : ClockFrame s (s.drain i) := by
  unfold State.drain
  split
  · exact (ClockFrame.modStream s i (f := fun st => { st with state := .stopping }) fun _ => rfl).trans
      (QueueFrame.drainIfEmpty i _).clock
  all_goals exact .refl s

theorem voidStream_clock (u : State) : ClockFrame u (u.voidStream i) := .of_eq (fun _ => rfl) rfl rfl

theorem detach_clock (u : State) : ClockFrame u (u.detach i) := .of_eq (fun _ => rfl) rfl rfl

theorem setOwners_clock (u : State) (o : Owners) : ClockFrame u { u with owners := o } := .of_eq (fun _ => rfl) rfl rfl

theorem abort_clock : ClockFrame s (s.abort i) := by
  have queue : ((s.beforeAbort i).stream i).queue = (s.stream i).queue := by rw [beforeAbort_stream]
  have before : ClockFrame s (s.beforeAbort i) :=
    (voidStream_clock s).trans (.modStream _ i (f := fun st => { st with backlog := [] }) fun _ => rfl)
  rw [State.abort_eq]
  exact (before.trans (retireAll_frame i Descriptor.abortOutcome _ _ queue).clock).trans
    (.modStream _ i (f := fun st => { st with state := .idle, gapOpen := false }) fun _ => rfl)

theorem beforeClose_clock : ClockFrame s (s.beforeClose i) := by
  unfold State.beforeClose
  exact ((voidStream_clock s).trans (retireAll_frame i (fun _ => .discarded) _ (s.voidStream i) rfl).clock).trans (detach_clock _)

theorem closeStream_clock : ClockFrame s (s.closeStream i) := by
  rw [closeStream_eq]
  exact (beforeClose_clock.trans (ClockFrame.modStream _ i (f := Stream.shut) fun _ => rfl)).trans (setOwners_clock _ _)

theorem submit_clock (p : List Byte) (h : Handle) (a : Start) : ClockFrame s (s.submit p i h a) := by
  have listed : ClockFrame s (s.lend p i h a) := (ClockFrame.modStream s i (f := fun st => { st with queue := st.queue ++ [h] })
    fun _ => rfl).trans (.of_eq (fun _ => rfl) rfl rfl)
  exact listed.trans (settleAt_frame _ i _).clock

theorem put_clock (h : Handle) (bs : List Byte) : ClockFrame s (s.put i h bs) :=
  (ClockFrame.of_eq (fun _ => rfl) rfl rfl : ClockFrame s (s.stored h bs)).trans (settleAt_frame _ i _).clock

theorem grantTo_clock : ClockFrame s (s.grantTo i) := by
  unfold State.grantTo State.grantPlay State.grantCapture
  split <;> split
  · exact .refl s
  · exact .of_eq (fun _ => rfl) rfl rfl
  · exact .refl s
  · next e rest _ =>
    exact (ClockFrame.modStream s i (f := fun st => { st with backlog := rest }) fun _ => rfl).trans (.of_eq (fun _ => rfl) rfl rfl)

theorem idle_clock : ClockFrame s { s with inFlight := none } := .of_eq (fun _ => rfl) rfl rfl

theorem placed_clock (m : Move) : ClockFrame s (s.placed m) := by
  rw [State.placed, State.resolvePlay_eq]
  refine ClockFrame.trans (ClockFrame.modStream s m.stream (f := fun st => { st with
    ring := placeInRing st.ring (m.frame - (s.domain (s.stream m.stream).domain).counter).toNat (s.placedEntry m) }) fun _ => rfl) ?_
  exact .of_eq (fun _ => rfl) rfl rfl

theorem completePlay_clock (m : Move) : ClockFrame s (s.completePlay m) :=
  (placed_clock m).trans (settleAt_frame _ m.stream _).clock

theorem passFilled_clock (h : Handle) : ClockFrame s (s.passFilled h) := by
  unfold State.passFilled State.passPage
  split
  · split
    · exact .refl s
    · exact .of_eq (fun _ => rfl) rfl rfl
  · exact .refl s

theorem completeCapture_clock (m : Move) (k : EntryKind) : ClockFrame s (s.completeCapture m k) :=
  ((ClockFrame.of_eq (fun _ => rfl) rfl rfl : ClockFrame s (s.written m k)).trans (passFilled_clock m.handle)).trans
    (settleAt_frame _ m.stream _).clock

/-- OPEN alone moves a stream to a domain. -/
theorem openStream_keeps {o : Opening} (hs : s.AllOk) (hi : (s.stream i).state = .closed) : (s.openStream i o).AllOk := by
  refine (openStream_parts o ((s.openStream i o).clock i) hs hi).retime fun j => .inl ?_
  split
  · next e => rw [e]
  · next e =>
    rw [State.clock, openStream_stream, if_neg e, openStream_domain]
    rfl

end

/-! ### The engine -/

theorem completion_keeps {s : State} {m : Move} (ho : s.OwnersOk) (hs : s.AllOk) (hm : s.inFlight = some m) (hv : m.void = false) :
    (match m.kind with
      | none => ({ s with inFlight := none } : State).completePlay m
      | some k => ({ s with inFlight := none } : State).completeCapture m k).AllOk := by
  split
  · next hk => exact (completePlay_parts hs hm hv hk).all (idle_clock.trans (completePlay_clock m))
  · next k hk =>
    exact (completeCapture_parts hs hm hv hk fun h => (ho.frameSize h).2).all (idle_clock.trans (completeCapture_clock m k))

theorem grant_keeps {s : State} (hs : s.AllOk) (hidle : s.inFlight = none) {i : StreamNo} (hi : s.arbitrate = some i) : (s.grantTo i).AllOk :=
  (grantTo_parts hs hidle (State.arbitrate_requests hi).1).all grantTo_clock

theorem setMode_still (s : State) (m : ArbMode) (r : List StreamNo) : Still s { s with mode := m, rotation := r } :=
  .of_eq rfl rfl rfl (fun _ => rfl) rfl fun d => by cases d <;> rfl

/-! ### The commands, one by one -/

theorem exec_allOk {c : Instr} {s t : State} (ho : s.OwnersOk) (hs : s.AllOk) (h : exec c s = .next t) : t.AllOk := by
  cases c with
  | pinReset ovr csnLow => cases h; exact fullReset_allOk s _ _ _
  | csnFalling =>
    cases h
    split
    · exact hs
    · exact (Still.modPort s (f := fun p => { p with csnLow := true, frame := some s.composeOut }) rfl).keeps hs
  | endOfExchange sdi =>
    cases h
    split
    · split
      · exact (endExchange_still s _ sdi).keeps hs
      · exact (Still.modPort s (f := fun p => { p.setFlags .noFrame with csnLow := false }) rfl).keeps hs
    · exact hs
  | unknownKind =>
    cases h
    unfold State.takeHead
    split
    · exact hs
    · next r rest _ =>
      split
      · exact reply_allOk ((Still.modPort s (f := fun p => { p with inbound := rest }) rfl).keeps hs) _ _ _
      · exact hs
  | identify => cases h; exact takeKind_allOk ho hs fun r u _ hu => reply_allOk hu _ _ _
  | status => cases h; exact takeKind_allOk ho hs fun r u _ hu => reply_allOk hu _ _ _
  | resetFull => cases h; exact takeKind_allOk ho hs fun r u _ _ => fullReset_allOk u _ _ _
  | resetStreams =>
    cases h
    refine takeKind_allOk ho hs fun r u _ hu => ?_
    split
    · exact reply_allOk (streamsReset_allOk hu.core) _ _ _
    · exact reply_allOk hu _ _ _
  | setDomain =>
    cases h
    refine takeKind_answer_allOk ho hs fun r u x hou hu hx => reply_allOk ?_ _ _ _
    exact setDomain_keeps x.2 hu hou (checkSetDomain_ok hx)
  | queryTime => cases h; exact takeKind_answer_allOk (check := fun _ => checkQueryTime) ho hs fun r u x _ hu _ => reply_allOk hu _ _ _
  | setLane => cases h; exact takeKind_answer_allOk ho hs fun r u x _ hu _ => reply_allOk ((Still.modLane u _ _).keeps hu) _ _ _
  | setMarker =>
    cases h
    exact takeKind_answer_allOk (check := fun _ => checkSetMarker) ho hs fun r u x _ hu _ => reply_allOk ((Still.modLane u _ _).keeps hu) _ _ _
  | openStream =>
    cases h
    exact takeKind_answer_allOk ho hs fun r u x _ hu hx => reply_allOk (openStream_keeps hu (checkOpen_ok hx).1) _ _ _
  | startStream =>
    cases h
    exact takeKind_answer_allOk ho hs fun r u i _ hu _ => reply_allOk ((startStream_parts hu).all startStream_clock) _ _ _
  | stopDrain => cases h; exact takeKind_answer_allOk ho hs fun r u i _ hu _ => reply_allOk ((drain_parts hu).all drain_clock) _ _ _
  | stopAbort => cases h; exact takeKind_answer_allOk ho hs fun r u i _ hu _ => reply_allOk ((abort_parts hu).all abort_clock) _ _ _
  | closeStream =>
    cases h
    refine takeKind_answer_allOk ho hs fun r u i _ hu hi => reply_allOk ((closeStream_parts hu ?_).all closeStream_clock) _ _ _
    simpa using (State.checkStream_ok.mp hi).2.1
  | queryStream => cases h; exact takeKind_answer_allOk ho hs fun r u i _ hu _ => reply_allOk hu _ _ _
  | submit =>
    cases h
    refine takeKind_answer_allOk ho hs fun r u x hou hu hx => reply_allOk ?_ _ _ _
    obtain ⟨i, h, a⟩ := x
    have passes := checkSubmit_ok hx
    have isOpen : (u.stream i).isOpen = true := by rcases passes.state with e | e <;> simp [Stream.isOpen, e]
    exact (submit_parts hu passes (hou.frameSize isOpen).1).all (submit_clock _ _ _)
  | put =>
    cases h
    refine takeKind_answer_allOk ho hs fun r u x _ hu hx => reply_allOk ?_ _ _ _
    obtain ⟨i, h⟩ := x
    obtain ⟨queued, loading, fits⟩ := checkPut_ok hx
    exact (put_parts hu queued loading fits).all (put_clock _ _)
  | clearOverride =>
    cases h
    refine takeKind_allOk ho hs fun r u _ hu => ?_
    split
    · exact reply_allOk hu _ _ _
    · exact reply_allOk ((setOverride_still u _).keeps hu) _ _ _
  | setArbitration =>
    cases h
    refine takeKind_answer_allOk (check := fun _ => checkSetArbitration) ho hs fun r u x _ hu _ => reply_allOk ?_ _ _ _
    exact (setMode_still u x _).keeps hu
  | grant =>
    cases h
    split
    · exact hs
    · next hidle =>
      split
      · exact hs
      · next i hi => exact grant_keeps hs hidle hi
  | completion =>
    cases h
    split
    · exact hs
    · next m hm =>
      dsimp only
      split
      · next hv => exact (void_parts hs fun x hx => by rw [hm] at hx; cases hx; exact hv).all idle_clock
      · next hv => exact completion_keeps ho hs hm (by simpa using hv)
  | frameClosed d bits duration rx =>
    cases h
    split
    · split
      · split
        · exact goodFrameClosed_keeps hs
        · exact (badFrameClosed_still s d).keeps hs
      · exact (Still.modDomain s d rfl).keeps hs
    · exact hs
  | lockTimeout d elapsed =>
    cases h
    split
    · exact (loseLock_still s d false).keeps hs
    · exact hs
  | goodRunTimeout d elapsed =>
    cases h
    split
    · exact (Still.modDomain s d rfl).keeps hs
    · exact hs
  | generatorBoundary d rx =>
    cases h
    split
    · exact frameEvent_keeps hs
    · exact hs
  | assertionEdge =>
    cases h
    split
    · exact hs
    · exact (((muteInFlight_still s).trans (setOverride_still _ _)).trans (.raiseOnce _ rfl)).keeps hs
  | deassertionEdge =>
    cases h
    split
    · exact hs
    · exact ((setOverride_still s _).trans (.raiseOnce _ rfl)).keeps hs
  | conversion =>
    cases h
    split
    · exact hs
    · next c rest hc =>
      split
      · exact convert_keeps hs hc
      · exact hs

theorem setPending_still (s : State) (cs : List Instr) : Still s { s with pending := cs } :=
  .of_eq rfl rfl rfl (fun _ => rfl) rfl fun d => by cases d <;> rfl

theorem poolsOk_iff_allOk {s : State} : s.PoolsOk ↔ s.OwnersOk ∧ s.AllOk :=
  poolsOk_iff.trans ⟨fun ⟨ho, hc, hi⟩ => ⟨ho, hc, hi⟩, fun ⟨ho, h⟩ => ⟨ho, h.core, h.streams⟩⟩

/-- Settles O59: the invariant is taken apart into the ownership entries, the descriptors with their pages and claims, and
each stream against its domain's counter; a command moves one stream at a time, and the test of R32 and R44 that ends it
brings that stream's queue to rest. -/
theorem stepKeepsPools : Obligations.StepKeepsPools := by
  intro s t hs h
  obtain ⟨owners, all⟩ := poolsOk_iff_allOk.mp hs
  refine poolsOk_iff_allOk.mpr ⟨stepKeepsOwners s t owners h, ?_⟩
  unfold step at h
  split at h
  · cases h; exact all
  · refine exec_allOk (OwnershipFrame.keeps (s := s) ?_ owners) ((setPending_still s _).keeps all) h
    exact .of_eq rfl rfl rfl rfl rfl

end Sys2Proof.Machine

/-! ## SUBMIT's checks in their order (R28) -/

namespace Sys2Proof.Machine

/-! ### The fields of a SUBMIT payload -/

/-- Least significant byte first (R174). -/
theorem field2_eq (p : List Byte) (k : Nat) : field2 p k = byteAt p (k + 1) ++ byteAt p k := by
  refine BitVec.eq_of_getLsbD_eq fun j hj => ?_
  rw [field2, BitVec.getLsbD_or, BitVec.getLsbD_shiftLeft, BitVec.getLsbD_append]
  simp only [BitVec.getLsbD_setWidth, hj, decide_true, Bool.true_and]
  by_cases low : j < 8
  · simp [low]
  · simp [low, BitVec.getLsbD_of_ge (byteAt p k) j (Nat.not_lt.mp low), Nat.lt_of_le_of_lt (Nat.sub_le j 8) hj]

theorem field2_toNat (p : List Byte) (k : Nat) :
    (field2 p k).toNat = (byteAt p k).toNat + 256 * (byteAt p (k + 1)).toNat := by
  rw [field2_eq, BitVec.toNat_append, ← Nat.shiftLeft_add_eq_or_of_lt (byteAt p k).isLt, Nat.shiftLeft_eq]
  omega

theorem startOf_isSome (b : Byte) (T : FrameNo) : (startOf b T).isSome = true ↔ b.toNat ≤ 1 := by
  unfold startOf
  split
  · next h => simp [h]
  · next h => simp [h]
  · next h0 h1 =>
    have h0 : b.toNat ≠ 0 := h0
    have h1 : b.toNat ≠ 1 := h1
    simp only [Option.isSome_none, Bool.false_eq_true, false_iff]
    omega

theorem lowestFree_isSome {s : State} : s.lowestFree.isSome = true ↔ ∃ h, (s.desc h).state = .free := by
  simp [State.lowestFree, List.find?_isSome]

theorem newestLoading_iff {s : State} {i : StreamNo} : s.newestLoading i = false ↔
    ∀ h ∈ (s.stream i).queue.getLast?, (s.desc h).state ≠ .loading := by
  unfold State.newestLoading
  cases (s.stream i).queue.getLast? <;> simp

/-- Settles O33: the list of checks is the model's own, field by field. -/
theorem submitCheckOrder : Obligations.SubmitCheckOrder := by
  intro s r rest b g t0 t1 f0 f1 a b0 b1 b2 b3 i hin hkind hp hi st frames bytes
  have hframes : submitFrames r.payload = frames := by
    rw [hp]
    exact field2_toNat _ 4
  have refused : ∀ st, (s.afterTaking rest).checkSubmit r.payload = .error st →
      exec .submit s = .next (s.answered rest r st (.subject b)) := fun st hc => by
    have hb : byteAt r.payload 0 = b := by rw [hp]; rfl
    exact hb ▸ congrArg Host.Outcome.next (takeKind_refused (check := State.checkSubmit) hin (by rw [hkind]; rfl) rfl
      (by rw [hp]; rfl) rfl hc)
  refine refusedInOrder_of_firstFailure ?_ fun st hf => refused st (checkSubmit_error (State.checkStream_fails (by rw [hp]; exact hi) hf))
  refine .cons ⟨?_, rfl⟩ (.cons ⟨?_, rfl⟩ (.cons ⟨?_, rfl⟩ (.cons ⟨?_, rfl⟩ (.cons ⟨?_, rfl⟩ (.cons ⟨?_, rfl⟩ (.cons ⟨?_, rfl⟩ .nil))))))
  · simp only [Bool.or_eq_true, decide_eq_true_eq]; exact Iff.rfl
  · simp [generationCheck, hp, st]
  · rw [Bool.and_eq_true, Bool.and_eq_true, decide_eq_true_eq, decide_eq_true_eq, startOf_isSome, submitBytes, hframes, hp]
    exact ⟨fun ⟨h1, h2, h3, h4⟩ => ⟨⟨⟨h1, h2⟩, h3⟩, h4⟩, fun ⟨⟨⟨h1, h2⟩, h3⟩, h4⟩ => ⟨h1, h2, h3, h4⟩⟩
  · rw [Bool.or_eq_true, Bool.not_eq_true', decide_eq_true_eq, newestLoading_iff]
    change (st.direction = .play → _) ↔ st.direction = .capture ∨ _
    cases st.direction <;> simp [st]
  · exact (decide_eq_true_iff).symm
  · exact lowestFree_isSome.symm
  · rw [decide_eq_true_eq, submitBytes, hframes]
    rfl

end Sys2Proof.Machine

/-! ## A READY head becomes eligible (R32 to R36) -/

namespace Sys2Proof.Machine

/-! ### Turns of a queue that comes to rest -/

section
variable {s : State} {i : StreamNo} {t : FrameTime}

/-- The head waits for frames: eligible, not spent, and with a position still to be assigned when it is a capture's. -/
theorem rests_of_waiting_head {h : Handle} {q : List Handle} (hq : (s.stream i).queue = h :: q) (he : (s.desc h).eligible = true)
    (hs : (s.desc h).spent = false) (hf : (s.stream i).direction = .capture → (s.desc h).fullyAssigned = false) : s.Rests i := by
  have notReady : (s.desc h).state ≠ .ready := fun e => by
    rw [Descriptor.not_eligible_of_ready e] at he
    cases he
  refine ⟨fun x hx => ?_, ?_⟩
  · rw [hq] at hx
    cases hx
    exact hs
  · unfold State.nextEligible
    rw [hq]
    split
    · split
      · exact if_neg notReady
      · next hd => simp [State.readyCapture, notReady, hf hd]
    · rfl

theorem settleQueue_rests (k : Nat) (hr : s.Rests i) : State.settleQueue i t k s = s := by
  cases k with
  | zero => rfl
  | succ k =>
    unfold State.settleQueue
    split
    · rfl
    · next h q hq => simp [hr.1 h (by simp [hq]), hr.2]

theorem settleAt_rests (hr : s.Rests i) : s.settleAt i t = s := settleQueue_rests _ hr

theorem settleQueue_eligible {h e : Handle} {q : List Handle} {a : Option Handle} (k : Nat) (hq : (s.stream i).queue = h :: q)
    (hs : (s.desc h).spent = false) (hn : s.nextEligible i = some (e, a)) :
    State.settleQueue i t (k + 1) s = State.settleQueue i t k (s.makeEligible i e a t) := by
  rw [State.settleQueue]
  simp only [hq, hs, hn, Bool.false_eq_true, if_false]

theorem settleQueue_spent {h : Handle} {q : List Handle} (k : Nat) (hq : (s.stream i).queue = h :: q) (hs : (s.desc h).spent = true) :
    State.settleQueue i t (k + 1) s = State.settleQueue i t k (s.retireResolved i h) := by
  rw [State.settleQueue]
  simp only [hq, hs, if_true]

/-- The one descriptor that R32 makes eligible, when that brings the queue to rest. -/
theorem settleAt_eligible {h e : Handle} {q : List Handle} {a : Option Handle} (hq : (s.stream i).queue = h :: q)
    (hs : (s.desc h).spent = false) (hn : s.nextEligible i = some (e, a)) (hr : (s.makeEligible i e a t).Rests i) :
    s.settleAt i t = s.makeEligible i e a t := by
  rw [State.settleAt, State.turns, settleQueue_eligible _ hq hs hn, settleQueue_rests _ hr]

/-- A head that becomes eligible with every position resolved retires in the next turn (R35, R36, R44). -/
theorem settleAt_retires {h : Handle} {q : List Handle} {a : Option Handle} (hq : (s.stream i).queue = h :: q)
    (hs : (s.desc h).spent = false) (hn : s.nextEligible i = some (h, a)) (hs' : ((s.makeEligible i h a t).desc h).spent = true) :
    ∃ k, s.settleAt i t = State.settleQueue i t k ((s.makeEligible i h a t).retireResolved i h) := by
  obtain ⟨bl, stream⟩ := makeEligible_stream s i h a t
  refine ⟨2 * q.length + 1, ?_⟩
  rw [State.settleAt, State.turns, hq, settleQueue_eligible _ hq hs hn, List.length_cons, Nat.mul_succ,
    settleQueue_spent _ (by rw [stream]; exact hq) hs']

theorem nextEligible_ready_head {h : Handle} {q : List Handle} (hm : (s.stream i).moving = true) (hq : (s.stream i).queue = h :: q)
    (hr : (s.desc h).state = .ready) : s.nextEligible i = some (h, none) := by
  rw [State.nextEligible, if_pos hm, hq]
  split
  · exact if_pos hr
  · exact if_pos hr

theorem not_spent_of_ready {d : Descriptor} (h : d.state = .ready) : d.spent = false :=
  not_spent_of_not_eligible (Descriptor.not_eligible_of_ready h)

end

/-! ### The READY head of a play stream -/

/-- At a record with nothing resolved: the early positions of a play record, and those alone, are resolved late (R35). -/
theorem playStart_fresh {d : Descriptor} (hr : d.resolved = 0) (hc : d.counts = Counts.zero) (S E : FrameNo) :
    d.playStart S E = { d with
      state := .waiting, span := some S, resolved := playLateCount S E d.frames
      counts := { Counts.zero with late := playLateCount S E d.frames }
      gone := max d.gone (d.doneEntries (playLateCount S E d.frames)) } := by
  simp only [Descriptor.playStart, Descriptor.resolvePlay, hr, hc, Counts.addPlay, Counts.zero, Nat.zero_add]
  rfl

theorem playStart_none {d : Descriptor} (hr : d.resolved = 0) (hc : d.counts = Counts.zero) (hg : d.gone = 0) (hf : 1 ≤ d.frames)
    {S E : FrameNo} (h : playLateCount S E d.frames = 0) : d.playStart S E = { d with state := .waiting, span := some S } := by
  have entries : d.doneEntries 0 = 0 := by
    rw [Descriptor.doneEntries, if_neg (by omega), Nat.zero_mul, Nat.zero_div]
  rw [playStart_fresh hr hc, h, entries, hg]
  obtain ⟨⟩ := d
  simp_all [Counts.zero]

section
variable {s : State} {i : StreamNo} {h : Handle} {q : List Handle} {t : FrameTime}

theorem makeEligible_play (hd : (s.stream i).direction = .play) (a : Option Handle) :
    s.makeEligible i h a t = s.makePlayEligible i h t := by
  rw [State.makeEligible, hd]

theorem makeEligible_capture (hd : (s.stream i).direction = .capture) (a : Option Handle) :
    s.makeEligible i h a t = s.makeCaptureEligible i h a t := by
  rw [State.makeEligible, hd]

theorem makePlayEligible_desc : (s.makePlayEligible i h t).desc h =
    (s.desc h).playStart ((s.desc h).start.spanStart (s.firstFree i t)) (s.firstFree i t) := by
  rw [makePlayEligible_eq, State.release_desc, State.desc_modDesc_same]

theorem makePlayEligible_stream (j : StreamNo) : (s.makePlayEligible i h t).stream j = s.stream j := by
  rw [makePlayEligible_eq]
  rfl

theorem makePlayEligible_claims : (s.makePlayEligible i h t).claims = s.claims := by
  rw [makePlayEligible_eq]
  rfl

theorem spent_iff {d : Descriptor} (he : d.eligible = true) : d.spent = false ↔ d.resolved < d.frames := by
  rw [Descriptor.spent, he, Bool.true_and, decide_eq_false_iff_not, Nat.not_le]

/-- A READY play head that is not late in every position becomes WAITING, and the queue is at rest (R33, R35). -/
theorem settleAt_play_waits (hd : (s.stream i).direction = .play) (hm : (s.stream i).moving = true) (hq : (s.stream i).queue = h :: q)
    (hr : (s.desc h).state = .ready) (hres : (s.desc h).resolved = 0)
    (hn : playLateCount ((s.desc h).start.spanStart (s.firstFree i t)) (s.firstFree i t) (s.desc h).frames < (s.desc h).frames) :
    s.settleAt i t = s.makePlayEligible i h t := by
  rw [← makeEligible_play hd none]
  refine settleAt_eligible hq (not_spent_of_ready hr) (nextEligible_ready_head hm hq hr) ?_
  rw [makeEligible_play hd]
  have resolved : ((s.makePlayEligible i h t).desc h).resolved < ((s.makePlayEligible i h t).desc h).frames := by
    rw [makePlayEligible_desc]
    change (s.desc h).resolved + _ < _
    rw [hres, Nat.zero_add]
    exact hn
  have eligible : ((s.makePlayEligible i h t).desc h).eligible = true := by rw [makePlayEligible_desc]; rfl
  refine rests_of_waiting_head (by rw [makePlayEligible_stream]; exact hq) eligible ((spent_iff eligible).mpr resolved) fun e => ?_
  rw [makePlayEligible_stream, hd] at e
  cases e

/-- A READY play head that is late in every position retires at once (R35, R44). -/
theorem settleAt_play_retires (hd : (s.stream i).direction = .play) (hm : (s.stream i).moving = true) (hq : (s.stream i).queue = h :: q)
    (hr : (s.desc h).state = .ready) (hres : (s.desc h).resolved = 0)
    (hn : playLateCount ((s.desc h).start.spanStart (s.firstFree i t)) (s.firstFree i t) (s.desc h).frames = (s.desc h).frames) :
    ∃ k, s.settleAt i t = State.settleQueue i t k ((s.makePlayEligible i h t).retireResolved i h) := by
  rw [← makeEligible_play hd none]
  refine settleAt_retires hq (not_spent_of_ready hr) (nextEligible_ready_head hm hq hr) ?_
  rw [makeEligible_play hd, makePlayEligible_desc]
  refine Bool.and_eq_true_iff.mpr ⟨rfl, decide_eq_true ?_⟩
  change _ ≤ (s.desc h).resolved + _
  rw [hres, Nat.zero_add, hn]
  exact Nat.le_refl _

/-! ### The READY head of a capture stream -/

theorem makeCaptureEligible_desc (a : Option Handle) : (s.makeCaptureEligible i h a t).desc h =
    (s.desc h).captureStart ((s.desc h).start.spanStart (s.firstOpen a t))
      (lateCount ((s.desc h).start.spanStart (s.firstOpen a t)) (s.firstOpen a t) (s.desc h).frames) := by
  rw [makeCaptureEligible_eq, State.modStream_desc, State.desc_modDesc_same]

theorem makeCaptureEligible_stream (a : Option Handle) : (s.makeCaptureEligible i h a t).stream i = { s.stream i with
    backlog := (s.stream i).backlog ++ (s.desc h).lateEntries h ((s.desc h).start.spanStart (s.firstOpen a t)) (lateCount
      ((s.desc h).start.spanStart (s.firstOpen a t)) (s.firstOpen a t) (s.desc h).frames) } := by
  rw [makeCaptureEligible_eq, State.stream_modStream_same]
  rfl

theorem makeCaptureEligible_claims (a : Option Handle) : (s.makeCaptureEligible i h a t).claims = s.claims := by
  rw [makeCaptureEligible_eq]
  rfl

theorem captureStart_some {d : Descriptor} {n : Nat} (hn : n < d.frames) (S : FrameNo) :
    d.captureStart S n = { d with state := .waiting, span := some S, assigned := n } := if_neg (Nat.ne_of_lt hn)

theorem captureStart_all {d : Descriptor} (S : FrameNo) : d.captureStart S d.frames = { d with
    state := .waiting, span := some S, assigned := d.frames, resolved := d.frames
    counts := { d.counts with late := d.frames } } := if_pos rfl

/-- A READY capture head that is not late in every position becomes WAITING, and the queue is at rest (R34, R36). -/
theorem settleAt_capture_waits (hd : (s.stream i).direction = .capture) (hm : (s.stream i).moving = true)
    (hq : (s.stream i).queue = h :: q) (hr : (s.desc h).state = .ready) (hres : (s.desc h).resolved = 0)
    (hn : lateCount ((s.desc h).start.spanStart (s.firstOpen none t)) (s.firstOpen none t) (s.desc h).frames < (s.desc h).frames) :
    s.settleAt i t = s.makeCaptureEligible i h none t := by
  rw [← makeEligible_capture hd]
  refine settleAt_eligible hq (not_spent_of_ready hr) (nextEligible_ready_head hm hq hr) ?_
  rw [makeEligible_capture hd]
  have self := (makeCaptureEligible_desc (s := s) (i := i) (h := h) (t := t) none).trans (captureStart_some hn _)
  have eligible : ((s.makeCaptureEligible i h none t).desc h).eligible = true := by rw [self]; rfl
  refine rests_of_waiting_head (by rw [makeCaptureEligible_stream]; exact hq) eligible ((spent_iff eligible).mpr ?_) fun _ => ?_
  · rw [self]
    change (s.desc h).resolved < (s.desc h).frames
    omega
  · rw [Descriptor.fullyAssigned, eligible, Bool.true_and, self]
    exact decide_eq_false (Nat.not_le.mpr hn)

/-- A READY capture head that is late in every position retires at once (R36, R44). -/
theorem settleAt_capture_retires (hd : (s.stream i).direction = .capture) (hm : (s.stream i).moving = true)
    (hq : (s.stream i).queue = h :: q) (hr : (s.desc h).state = .ready)
    (hn : lateCount ((s.desc h).start.spanStart (s.firstOpen none t)) (s.firstOpen none t) (s.desc h).frames = (s.desc h).frames) :
    ∃ k, s.settleAt i t = State.settleQueue i t k ((s.makeCaptureEligible i h none t).retireResolved i h) := by
  rw [← makeEligible_capture hd]
  refine settleAt_retires hq (not_spent_of_ready hr) (nextEligible_ready_head hm hq hr) ?_
  rw [makeEligible_capture hd, makeCaptureEligible_desc, hn, captureStart_all]
  simp [Descriptor.spent, Descriptor.eligible]

/-! ### Retired late -/

/-- A head with every position late, retired, and the turns that follow (R44, R45, R46). -/
theorem settleQueue_retired {u : State} (k : Nat) (hq : (u.stream i).queue = h :: q) (hout : h ∉ q)
    (hres : (u.desc h).resolved = (u.desc h).frames) (hc : (u.desc h).counts = { Counts.zero with late := (u.desc h).frames }) :
    let w := State.settleQueue i t k (u.retireResolved i h)
    (w.desc h).state = .retired ∧ (w.desc h).outcome = some .late ∧ (w.desc h).span = (u.desc h).span ∧
      (w.desc h).counts = { Counts.zero with late := (u.desc h).frames } ∧ h ∉ (w.stream i).queue ∧
      u.claims ++ (u.desc h).partClaim h ++ [.done h] <+: w.claims := by
  intro w
  have late : (u.desc h).resolvedOutcome = .late := if_pos (by rw [hc])
  have rest := settleQueue_frame i t k (u.retireResolved i h)
  have drained := QueueFrame.drainIfEmpty i (u.retire i h (u.desc h).resolvedOutcome)
  have queue : ((u.retire i h (u.desc h).resolvedOutcome).stream i).queue = q := by
    rw [retire_stream, if_pos rfl, hq, List.erase_cons_head]
  have gone : h ∉ ((u.retireResolved i h).stream i).queue := fun e => hout (queue ▸ drained.queue.subset e)
  have record : w.desc h = ((u.desc h).retire .late).emptied := by
    rw [rest.descs h gone, State.retireResolved, drained.descs h (by rw [queue]; exact hout), retire_desc, if_pos rfl, late]
  refine ⟨by rw [record]; rfl, by rw [record]; rfl, by rw [record]; rfl, ?_, fun e => gone (rest.queue.subset e), ?_⟩
  · rw [record]
    simp [Descriptor.retire, Descriptor.emptied, hc, hres, Counts.zero]
  · have := retire_claims u i h (u.desc h).resolvedOutcome
    rw [List.append_assoc, ← this]
    exact drained.claims.trans rest.claims

end

/-! ### START -/

/-- R35 with the last sentences of R35 and R100: at 2^31 frames the span start counts as earlier. -/
theorem playLateCount_cases (S E : FrameNo) (n : Nat) :
    (1 ≤ (E - S).toNat ∧ (E - S).toNat ≤ 2 ^ 31 → playLateCount S E n = min (E - S).toNat n) ∧
      (¬ (1 ≤ (E - S).toNat ∧ (E - S).toNat ≤ 2 ^ 31) → playLateCount S E n = 0) :=
  ⟨fun h => if_pos h, fun h => if_neg h⟩

/-- R36 by the test of R100. -/
theorem lateCount_cases (S E : FrameNo) (n : Nat) :
    (1 ≤ (E - S).toNat ∧ (E - S).toNat < 2 ^ 31 → lateCount S E n = min (E - S).toNat n) ∧
      (¬ (1 ≤ (E - S).toNat ∧ (E - S).toNat < 2 ^ 31) → lateCount S E n = 0) :=
  ⟨fun h => if_pos (precedes_iff.mpr h), fun h => if_neg fun e => h (precedes_iff.mp e)⟩

/-- What becomes, in `w`, of the fresh READY record `d` at the head `h` of a stream that had the context `st` (R32 to R36). -/
structure StartsHead (d : Descriptor) (st : Stream) (w : State) (i : StreamNo) (h : Handle) (q : List Handle) (S : FrameNo)
    (early : Nat) (earlier : Prop) : Prop where
  first : ¬ earlier → w.desc h = { d with
    state := .waiting, span := some S, assigned := if st.direction = .play then d.assigned else 0 } ∧
    (w.stream i).queue = h :: q ∧ (w.stream i).backlog = st.backlog
  play : earlier → early < d.frames → st.direction = .play →
    (w.desc h).state = .waiting ∧ (w.desc h).span = some S ∧ (w.desc h).resolved = early ∧
    (w.desc h).counts = { Counts.zero with late := early } ∧ (w.stream i).queue = h :: q
  capture : earlier → early < d.frames → st.direction = .capture →
    (w.desc h).state = .waiting ∧ (w.desc h).span = some S ∧ (w.desc h).resolved = 0 ∧ (w.desc h).assigned = early ∧
    (w.stream i).queue = h :: q ∧ (w.stream i).backlog = st.backlog ++ (List.range early).map fun k =>
      { handle := h, position := k, frame := S + BitVec.ofNat 32 k, kind := .lateZero }
  late : earlier → d.frames ≤ early →
    (w.desc h).state = .retired ∧ (w.desc h).outcome = some .late ∧ (w.desc h).span = some S ∧
    (w.desc h).counts = { Counts.zero with late := d.frames } ∧ h ∉ (w.stream i).queue ∧ Claim.done h ∈ w.claims

section
variable {u : State} {i : StreamNo} {h : Handle} {q : List Handle} {t : FrameTime}

theorem startsHead_play (hd : (u.stream i).direction = .play) (hm : (u.stream i).moving = true) (hq : (u.stream i).queue = h :: q)
    (hr : (u.desc h).state = .ready) (hout : h ∉ q) (hf : 1 ≤ (u.desc h).frames) (hres : (u.desc h).resolved = 0)
    (hc : (u.desc h).counts = Counts.zero) (hg : (u.desc h).gone = 0) {E S : FrameNo} (hE : u.firstFree i t = E)
    (hS : (u.desc h).start.spanStart E = S) :
    StartsHead (u.desc h) (u.stream i) (u.settleAt i t) i h q S (E - S).toNat (1 ≤ (E - S).toNat ∧ (E - S).toNat ≤ 2 ^ 31) := by
  obtain ⟨some, none⟩ := playLateCount_cases S E (u.desc h).frames
  have waits := settleAt_play_waits (t := t) hd hm hq hr hres
  have retires := settleAt_play_retires (t := t) hd hm hq hr hres
  have desc : (u.makePlayEligible i h t).desc h = (u.desc h).playStart S E := by
    rw [makePlayEligible_desc, hE, hS]
  rw [hE, hS] at waits retires
  refine ⟨fun he => ?_, fun he hlt _ => ?_, fun _ _ e => absurd (hd.symm.trans e) (by decide), fun he hle => ?_⟩
  · rw [waits (by rw [none he]; exact hf), desc, playStart_none hres hc hg hf (none he), makePlayEligible_stream, if_pos hd]
    exact ⟨rfl, hq, rfl⟩
  · have count : playLateCount S E (u.desc h).frames = (E - S).toNat := (some he).trans (Nat.min_eq_left hlt.le)
    rw [waits (by rw [count]; exact hlt), desc, playStart_fresh hres hc, makePlayEligible_stream, count]
    exact ⟨rfl, rfl, rfl, rfl, hq⟩
  · have count : playLateCount S E (u.desc h).frames = (u.desc h).frames := (some he).trans (Nat.min_eq_right hle)
    obtain ⟨k, eq⟩ := retires count
    have record := desc.trans (playStart_fresh hres hc S E)
    rw [count] at record
    obtain ⟨h1, h2, h3, h4, h5, h6⟩ := settleQueue_retired (i := i) (t := t) (u := u.makePlayEligible i h t) k
      (by rw [makePlayEligible_stream]; exact hq) hout (by rw [record]) (by rw [record])
    rw [record] at h3 h4
    rw [eq]
    exact ⟨h1, h2, h3, h4, h5, h6.subset (by simp)⟩

theorem startsHead_capture (hd : (u.stream i).direction = .capture) (hm : (u.stream i).moving = true)
    (hq : (u.stream i).queue = h :: q) (hr : (u.desc h).state = .ready) (hout : h ∉ q) (hf : 1 ≤ (u.desc h).frames)
    (hres : (u.desc h).resolved = 0) (hc : (u.desc h).counts = Counts.zero) {E S : FrameNo} (hE : u.firstOpen none t = E)
    (hS : (u.desc h).start.spanStart E = S) :
    StartsHead (u.desc h) (u.stream i) (u.settleAt i t) i h q S (E - S).toNat (1 ≤ (E - S).toNat ∧ (E - S).toNat < 2 ^ 31) := by
  obtain ⟨some, none⟩ := lateCount_cases S E (u.desc h).frames
  have waits := settleAt_capture_waits (t := t) hd hm hq hr hres
  have retires := settleAt_capture_retires (t := t) hd hm hq hr
  have desc := makeCaptureEligible_desc (s := u) (i := i) (h := h) (t := t) Option.none
  have stream := makeCaptureEligible_stream (s := u) (i := i) (h := h) (t := t) Option.none
  rw [hE, hS] at waits retires desc stream
  refine ⟨fun he => ?_, fun _ _ e => absurd (hd.symm.trans e) (by decide), fun he hlt _ => ?_, fun he hle => ?_⟩
  · have short : 0 < (u.desc h).frames := hf
    rw [none he] at desc stream
    rw [waits (by rw [none he]; exact hf), desc, captureStart_some hf, stream, if_neg (by rw [hd]; decide), Descriptor.lateEntries,
      if_neg (Nat.ne_of_lt short)]
    exact ⟨rfl, hq, List.append_nil _⟩
  · have count : lateCount S E (u.desc h).frames = (E - S).toNat := (some he).trans (Nat.min_eq_left hlt.le)
    rw [count] at desc stream
    rw [waits (by rw [count]; exact hlt), desc, captureStart_some hlt, stream, Descriptor.lateEntries, if_neg (Nat.ne_of_lt hlt)]
    refine ⟨rfl, rfl, hres, rfl, hq, ?_⟩
    simp only [zeroPositionsFrom, Nat.zero_add, frameOf]
  · have count : lateCount S E (u.desc h).frames = (u.desc h).frames := (some he).trans (Nat.min_eq_right hle)
    obtain ⟨k, eq⟩ := retires count
    rw [count, captureStart_all] at desc
    obtain ⟨h1, h2, h3, h4, h5, h6⟩ := settleQueue_retired (i := i) (t := t) (u := u.makeCaptureEligible i h Option.none t) k
      (by rw [stream]; exact hq) hout (by rw [desc]) (by rw [desc]; exact congrArg (fun c : Counts => { c with late := (u.desc h).frames }) hc)
    rw [desc] at h3 h4
    rw [eq]
    exact ⟨h1, h2, h3, h4, h5, h6.subset (by simp)⟩

end

section
variable {s : State} {i : StreamNo} {h : Handle} {q : List Handle} {E S : FrameNo}

/-- The frame time that the test of R32 reads at START. -/
theorem startStream_settles (s : State) (i : StreamNo) : s.startStream i =
    (s.modStream i Stream.started).settleAt i (s.domain (s.stream i).domain).now := by
  have run : (s.modStream i Stream.started).stream i = (s.stream i).started := State.stream_modStream_same s i _
  rw [State.startStream_eq, State.settle, run, State.modStream_domain]
  rfl

theorem startStream_play (hd : (s.stream i).direction = .play) (hq : (s.stream i).queue = h :: q) (hr : (s.desc h).state = .ready)
    (hout : h ∉ q) (hf : 1 ≤ (s.desc h).frames) (hres : (s.desc h).resolved = 0) (hc : (s.desc h).counts = Counts.zero)
    (hg : (s.desc h).gone = 0) (hE : (s.domain (s.stream i).domain).counter + BitVec.ofNat 32 (s.stream i).ring.length = E)
    (hS : (s.desc h).start.spanStart E = S) :
    StartsHead (s.desc h) (s.stream i).started (s.startStream i) i h q S (E - S).toNat (1 ≤ (E - S).toNat ∧ (E - S).toNat ≤ 2 ^ 31) := by
  have run : (s.modStream i Stream.started).stream i = (s.stream i).started := State.stream_modStream_same s i _
  rw [startStream_settles, ← run]
  refine startsHead_play (u := s.modStream i Stream.started) (by rw [run]; exact hd) (by rw [run]; rfl) (by rw [run]; exact hq) hr hout hf hres hc hg ?_ hS
  rw [State.firstFree, run]
  exact hE

theorem startStream_capture (hd : (s.stream i).direction = .capture) (hq : (s.stream i).queue = h :: q)
    (hr : (s.desc h).state = .ready) (hout : h ∉ q) (hf : 1 ≤ (s.desc h).frames) (hres : (s.desc h).resolved = 0)
    (hc : (s.desc h).counts = Counts.zero) (hE : (s.domain (s.stream i).domain).now.captureD = E)
    (hS : (s.desc h).start.spanStart E = S) :
    StartsHead (s.desc h) (s.stream i).started (s.startStream i) i h q S (E - S).toNat (1 ≤ (E - S).toNat ∧ (E - S).toNat < 2 ^ 31) := by
  have run : (s.modStream i Stream.started).stream i = (s.stream i).started := State.stream_modStream_same s i _
  rw [startStream_settles, ← run]
  exact startsHead_capture (u := s.modStream i Stream.started) (by rw [run]; exact hd) (by rw [run]; rfl) (by rw [run]; exact hq) hr hout hf hres hc hE hS

end

/-- Settles O28: with the stream RUNNING the READY head is what R32 tests first; its early positions decide between waiting
and retiring. -/
theorem headEligibleAtStart : Obligations.HeadEligibleAtStart := by
  intro s r rest b i h q hin hkind hp hi hidle hq hr hout hf hres hcounts hgone dm first S early earlier
  have hc : (s.afterTaking rest).checkStart r.payload = .ok i := by
    rw [hp]
    exact State.checkStream_passes hi (decide_eq_true hidle) (generationCheck_none rfl)
  have acted := takeKind_acts (sel := anyRequest) (check := State.checkStart)
    (act := fun r s i => (s.startStream i).reply r .ok (.stream i)) hin (by rw [hkind]; rfl) rfl (by rw [hp]; rfl) hc
  have counter : ((s.afterTaking rest).domain (s.stream i).domain) = dm := by
    simp only [dm]
    cases (s.stream i).domain <;> rfl
  have spanned : (s.desc h).start.spanStart first = S := by
    simp only [S]
    cases (s.desc h).start <;> rfl
  have starts : StartsHead (s.desc h) (s.stream i).started ((s.afterTaking rest).startStream i) i h q S early earlier := by
    cases hd : (s.stream i).direction with
    | play =>
      have free : dm.counter + BitVec.ofNat 32 (s.stream i).ring.length = first := by simp only [first, hd]
      have bound : earlier = (1 ≤ early ∧ early ≤ 2 ^ 31) := propext <| by
        simp only [earlier, hd, true_and]
        omega
      rw [bound]
      exact startStream_play (s := s.afterTaking rest) (E := first) hd hq hr hout hf hres hcounts hgone
        ((congrArg (fun d : Domain => d.counter + BitVec.ofNat 32 (s.stream i).ring.length) counter).trans free) spanned
    | capture =>
      have opens : dm.now.captureD = first := by simp only [first, hd]; rfl
      have bound : earlier = (1 ≤ early ∧ early < 2 ^ 31) := propext <| by simp [earlier, hd]
      rw [bound]
      exact startStream_capture (s := s.afterTaking rest) (E := first) hd hq hr hout hf hres hcounts
        ((congrArg (fun d : Domain => d.now.captureD) counter).trans opens) spanned
  obtain ⟨h1, h2, h3, h4⟩ := starts
  exact ⟨_, congrArg Host.Outcome.next acted, h1, h2, h3, h4⟩

end Sys2Proof.Machine

/-! ## SUBMIT lends a descriptor (R29, R32, R55) -/

namespace Sys2Proof.Machine

/-! ### The checks pass -/

theorem lowestFree_eq {s : State} {h : Handle} (hf : (s.desc h).state = .free) (hl : ∀ x, x < h → (s.desc x).state ≠ .free) :
    s.lowestFree = some h := by
  rw [State.lowestFree, List.find?_eq_some_iff_getElem]
  refine ⟨decide_eq_true hf, h.val, by simp, by simp, fun j hj => ?_⟩
  simp only [List.getElem_finRange, Bool.not_eq_true', decide_eq_false_iff_not]
  exact hl _ hj

theorem checkSubmit_of_passes {s : State} {p : List Byte} {i : StreamNo} {h : Handle} {a : Start} (hi : (byteAt p 0).toNat = i.val)
    (hg : byteAt p 1 = (s.stream i).generation) (hp : s.SubmitPasses p i h a) : s.checkSubmit p = .ok (i, h, a) := by
  have state : (decide ((s.stream i).state = .idle) || decide ((s.stream i).state = .running)) = true := by
    simpa using hp.state
  have tail : (decide ((s.stream i).direction = .capture) || !s.newestLoading i) = true := by
    rcases hp.tail with e | e <;> simp [e]
  have passes := State.checkStream_passes (s := s) (p := p) (accepts := fun st => st.state = .idle || st.state = .running)
    (own := fun i st =>
      [ generationCheck p st,
        (decide (1 ≤ submitFrames p ∧ submitFrames p ≤ Config.maxFrames) && (startOf (byteAt p 6) (field4 p 7)).isSome &&
          decide (submitBytes p st ≤ Config.maxBytes), .badField),
        (decide (st.direction = .capture) || !s.newestLoading i, .stillLoading),
        (decide (st.queue.length < st.depth), .queueFull),
        (s.lowestFree.isSome, .poolEmpty),
        (decide (pagesFor (submitBytes p st) ≤ s.freeList.length), .pagesShort) ]) hi state ?_
  · unfold State.checkSubmit
    dsimp only
    rw [passes, hp.free, hp.start]
  · refine firstFailure_eq_none.mpr ?_
    simp only [List.forall_mem_cons, List.not_mem_nil, false_imp_iff, implies_true, and_true]
    refine ⟨generationCheck_holds hg, ?_, tail, decide_eq_true hp.depth, by rw [hp.free]; rfl, decide_eq_true hp.pages⟩
    rw [hp.start]
    simp only [Option.isSome_some, Bool.and_true, Bool.and_eq_true, decide_eq_true_eq]
    exact ⟨hp.frames, hp.bytes⟩

theorem field4_eq (p : List Byte) (k : Nat) :
    field4 p k = byteAt p (k + 3) ++ byteAt p (k + 2) ++ byteAt p (k + 1) ++ byteAt p k := by
  have halves : field4 p k = field2 p (k + 2) ++ field2 p k := by
    refine BitVec.eq_of_getLsbD_eq fun j hj => ?_
    rw [field4, BitVec.getLsbD_or, BitVec.getLsbD_shiftLeft, BitVec.getLsbD_append]
    simp only [BitVec.getLsbD_setWidth, hj, decide_true, Bool.true_and]
    by_cases low : j < 16
    · simp [low]
    · simp [low, BitVec.getLsbD_of_ge (field2 p k) j (Nat.not_lt.mp low), Nat.lt_of_le_of_lt (Nat.sub_le j 16) hj]
  rw [halves, field2_eq, field2_eq]
  refine BitVec.eq_of_toNat_eq ?_
  simp only [BitVec.toNat_append, Nat.shiftLeft_or_distrib, ← Nat.shiftLeft_add, Nat.or_assoc]

theorem startOf_eq {b : Byte} (h : b.toNat ≤ 1) (T : FrameNo) : startOf b T = some (if b = 0 then .immediate else .at T) := by
  by_cases e : b = 0
  · subst e
    rfl
  · have one : b.toNat = 1 := by
      have : b.toNat ≠ 0 := fun h0 => e (BitVec.eq_of_toNat_eq h0)
      omega
    rw [if_neg e]
    simp only [startOf, one]

/-! ### The state in which the descriptor is lent -/

/-- Descriptor `h` has the record `d`, stream `i` the context `st`, and the free list is `l`. -/
def State.lentAs (s : State) (i : StreamNo) (h : Handle) (d : Descriptor) (st : Stream) (l : List PageNo) : State :=
  { (s.modDesc h fun _ => d).modStream i fun _ => st with freeList := l }

section
variable {s : State} {i : StreamNo} {h : Handle} {d : Descriptor} {st : Stream} {l : List PageNo}

theorem lentAs_desc_same : (s.lentAs i h d st l).desc h = d := State.desc_modDesc_same s h fun _ => d

theorem lentAs_desc_ne {x : Handle} (hx : x ≠ h) : (s.lentAs i h d st l).desc x = s.desc x :=
  State.desc_modDesc_ne s (fun _ => d) hx

theorem lentAs_stream : (s.lentAs i h d st l).stream i = st := State.stream_modStream_same s i fun _ => st

theorem lentAs_stream_ne {j : StreamNo} (hj : j ≠ i) : (s.lentAs i h d st l).stream j = s.stream j :=
  State.stream_modStream_ne (s.modDesc h fun _ => d) (fun _ => st) hj

theorem lentAs_modDesc (f : Descriptor → Descriptor) : (s.lentAs i h d st l).modDesc h f = s.lentAs i h (f d) st l :=
  congrArg (fun u : State => ({ u.modStream i fun _ => st with freeList := l } : State)) (s.modDesc_modDesc h (fun _ => d) f)

theorem lentAs_modStream (f : Stream → Stream) : (s.lentAs i h d st l).modStream i f = s.lentAs i h d (f st) l :=
  congrArg (fun u : State => ({ u with freeList := l } : State)) ((s.modDesc h fun _ => d).modStream_modStream i (fun _ => st) f)

/-- R34 and R36 at a record just lent. -/
theorem lentAs_captureEligible (a : Option Handle) (t : FrameTime) {Q S : FrameNo} {n : Nat}
    (hQ : (s.lentAs i h d st l).firstOpen a t = Q) (hS : d.start.spanStart Q = S) (hn : lateCount S Q d.frames = n) :
    (s.lentAs i h d st l).makeCaptureEligible i h a t =
      s.lentAs i h (d.captureStart S n) { st with backlog := st.backlog ++ d.lateEntries h S n } l := by
  rw [makeCaptureEligible_eq, lentAs_desc_same, hQ, hS, hn, lentAs_modDesc, lentAs_modStream]

/-- Retirement of a record just lent that has written nothing: its pages go back and its account is raised (R44, R49). -/
theorem lentAs_retire (o : DoneOutcome) (hw : d.written = 0) : (s.lentAs i h d st l).retire i h o =
    { s.lentAs i h ((d.retire o).emptied) { st with queue := st.queue.erase h } (l ++ d.heldPages) with
      claims := s.claims ++ [.done h] } := by
  rw [retire_eq, lentAs_desc_same, lentAs_modDesc, lentAs_modStream, leftPages_unwritten hw, partClaim_unwritten hw]
  rfl

/-- The only descriptor of a RUNNING stream, late in every position, retires (R44). -/
theorem lentAs_retireResolved_late (hl : d.resolvedOutcome = .late) (hw : d.written = 0) (hq : st.queue = [h])
    (hs : st.state = .running) : (s.lentAs i h d st l).retireResolved i h =
      { s.lentAs i h ((d.retire .late).emptied) { st with queue := [] } (l ++ d.heldPages) with claims := s.claims ++ [.done h] } := by
  rw [State.retireResolved, lentAs_desc_same, hl, lentAs_retire .late hw, hq, List.erase_cons_head]
  refine drainIfEmpty_stays (.inl fun e => ?_)
  have stream := lentAs_stream (s := s) (i := i) (h := h) (d := (d.retire .late).emptied) (st := { st with queue := [] })
    (l := l ++ d.heldPages)
  have state : st.state = .stopping := (congrArg Stream.state stream.symm).trans e
  rw [hs] at state
  cases state

end

/-! ### What the test of R32 finds -/

theorem readyCapture_stops {s : State} {front back : List Handle} {k : Handle} (a : Option Handle)
    (hf : ∀ x ∈ front, (s.desc x).fullyAssigned = true) (hr : (s.desc k).state ≠ .ready) (hk : (s.desc k).fullyAssigned = false) :
    s.readyCapture a (front ++ k :: back) = none := by
  induction front generalizing a with
  | nil => simp [State.readyCapture, hr, hk]
  | cons x front ih =>
    have full := hf x List.mem_cons_self
    have notReady : (s.desc x).state ≠ .ready := fun e => by
      have := Descriptor.eligible_of_fullyAssigned full
      rw [Descriptor.not_eligible_of_ready e] at this
      cases this
    rw [List.cons_append, State.readyCapture, if_neg notReady, if_pos full]
    exact ih (some x) fun y hy => hf y (List.mem_cons_of_mem _ hy)

theorem readyCapture_reaches {s : State} {front back : List Handle} {e : Handle} (a : Option Handle)
    (hf : ∀ x ∈ front, (s.desc x).fullyAssigned = true) (hr : (s.desc e).state = .ready) :
    s.readyCapture a (front ++ e :: back) = some (e, front.getLast?.or a) := by
  induction front generalizing a with
  | nil => simp [State.readyCapture, hr]
  | cons x front ih =>
    have full := hf x List.mem_cons_self
    have notReady : (s.desc x).state ≠ .ready := fun e => by
      have := Descriptor.eligible_of_fullyAssigned full
      rw [Descriptor.not_eligible_of_ready e] at this
      cases this
    rw [List.cons_append, State.readyCapture, if_neg notReady, if_pos full, ih (some x) fun y hy => hf y (List.mem_cons_of_mem _ hy)]
    cases front with
    | nil => rfl
    | cons y front => simp [List.getLast?_cons]

theorem readyCapture_none_of_not_ready {s : State} {q : List Handle} (a : Option Handle) (h : ∀ x ∈ q, (s.desc x).state ≠ .ready) :
    s.readyCapture a q = none := by
  cases hn : s.readyCapture a q with
  | none => rfl
  | some x => exact absurd (State.readyCapture_mem hn).2 (h _ (State.readyCapture_mem hn).1)

/-! ### SUBMIT brings the queue to rest -/

section
variable {s : State} {i : StreamNo} {h : Handle} {d : Descriptor} {l : List PageNo} {t : FrameTime}

/-- The state in which SUBMIT has appended descriptor `h` with the record `d` to the queue of stream `i`. -/
def State.appended (s : State) (i : StreamNo) (h : Handle) (d : Descriptor) (l : List PageNo) : State :=
  s.lentAs i h d { s.stream i with queue := (s.stream i).queue ++ [h] } l

theorem appended_queue : ((s.appended i h d l).stream i).queue = (s.stream i).queue ++ [h] := by
  rw [State.appended, lentAs_stream]

theorem appended_desc {x : Handle} (hx : x ≠ h) : (s.appended i h d l).desc x = s.desc x := lentAs_desc_ne hx

theorem appended_desc_same : (s.appended i h d l).desc h = d := lentAs_desc_same

/-- The head is no more spent than it was: it is the old one, or the one appended. -/
theorem appended_head {u : State} (hu : ∀ x, x ≠ h → u.desc x = s.desc x) (hq : (u.stream i).queue = (s.stream i).queue ++ [h])
    (hr : ∀ k ∈ (s.stream i).queue.head?, (s.desc k).spent = false) (hd : (u.desc h).spent = false) :
    ∀ x ∈ (u.stream i).queue.head?, (u.desc x).spent = false := by
  intro x hx
  by_cases e : x = h
  · rw [e]; exact hd
  · rw [hu x e]
    refine hr x ?_
    rw [hq] at hx
    cases hs : (s.stream i).queue with
    | nil => rw [hs] at hx; exact absurd (by simpa using hx.symm) e
    | cons y q => rw [hs] at hx; exact hx

theorem appended_moving : ((s.appended i h d l).stream i).moving = (s.stream i).moving := by
  rw [State.appended, lentAs_stream]
  rfl

theorem appended_settle : (s.appended i h d l).settle i = (s.appended i h d l).settleAt i (s.domain (s.stream i).domain).now := by
  rw [State.settle, State.appended, lentAs_stream]
  cases (s.stream i).domain <;> rfl

theorem appended_direction : ((s.appended i h d l).stream i).direction = (s.stream i).direction := by
  rw [State.appended, lentAs_stream]

theorem appended_idle (hr : ∀ k ∈ (s.stream i).queue.head?, (s.desc k).spent = false) (hd : d.spent = false)
    (hm : (s.stream i).moving = false) : (s.appended i h d l).Rests i := by
  refine ⟨appended_head (fun x => appended_desc) appended_queue hr (by rw [appended_desc_same]; exact hd), ?_⟩
  rw [State.nextEligible, appended_moving, hm]
  rfl

theorem appended_play (hr : ∀ k ∈ (s.stream i).queue.head?, (s.desc k).spent = false) (hd : d.spent = false)
    (hp : (s.stream i).direction = .play) (hn : ∀ k ∈ (s.stream i).queue.head?, (s.desc k).state ≠ .ready) (hl : d.state ≠ .ready) :
    (s.appended i h d l).Rests i := by
  refine ⟨appended_head (fun x => appended_desc) appended_queue hr (by rw [appended_desc_same]; exact hd), ?_⟩
  have notReady : ∀ x ∈ ((s.stream i).queue ++ [h]).head?, ((s.appended i h d l).desc x).state ≠ .ready := fun x hx => by
    by_cases e : x = h
    · rw [e, appended_desc_same]; exact hl
    · rw [appended_desc e]
      refine hn x ?_
      cases hs : (s.stream i).queue with
      | nil => rw [hs] at hx; exact absurd (by simpa using hx.symm) e
      | cons y q => rw [hs] at hx; exact hx
  rw [State.nextEligible, appended_direction, hp, appended_queue]
  split
  · cases hq : (s.stream i).queue ++ [h] with
    | nil => rfl
    | cons x q => exact if_neg (notReady x (by rw [hq]; rfl))
  · rfl

theorem appended_capture {front back : List Handle} {k : Handle} (hr : ∀ x ∈ (s.stream i).queue.head?, (s.desc x).spent = false)
    (hd : d.spent = false) (hc : (s.stream i).direction = .capture) (hq : (s.stream i).queue = front ++ k :: back)
    (hout : h ∉ (s.stream i).queue) (hf : ∀ x ∈ front, (s.desc x).fullyAssigned = true) (hk : (s.desc k).fullyAssigned = false)
    (hn : (s.desc k).state ≠ .ready) : (s.appended i h d l).Rests i := by
  refine ⟨appended_head (fun x => appended_desc) appended_queue hr (by rw [appended_desc_same]; exact hd), ?_⟩
  have old : ∀ x ∈ (s.stream i).queue, (s.appended i h d l).desc x = s.desc x := fun x hx => appended_desc fun e => hout (e ▸ hx)
  rw [State.nextEligible, appended_direction, hc, appended_queue, hq, List.append_assoc, List.cons_append]
  split
  · refine readyCapture_stops none (fun x hx => ?_) ?_ ?_
    · rw [old x (by simp [hq, hx])]; exact hf x hx
    · rw [old k (by simp [hq])]; exact hn
    · rw [old k (by simp [hq])]; exact hk
  · rfl

/-- Behind descriptors that are all fully assigned the new one is the next to become eligible (R32). -/
theorem appended_next (hm : (s.stream i).moving = true) (hc : (s.stream i).direction = .capture) (hout : h ∉ (s.stream i).queue)
    (hf : ∀ x ∈ (s.stream i).queue, (s.desc x).fullyAssigned = true) (hd : d.state = .ready) :
    (s.appended i h d l).nextEligible i = some (h, (s.stream i).queue.getLast?) := by
  rw [State.nextEligible, if_pos (appended_moving.trans hm), appended_direction, hc, appended_queue]
  refine (readyCapture_reaches none (fun x hx => ?_) (by rw [appended_desc_same]; exact hd)).trans (by rw [Option.or_none])
  rw [appended_desc fun e : x = h => hout (e ▸ hx)]
  exact hf x hx

/-- No descriptor of the queue is READY any more, and the head is not spent. -/
theorem rests_of_none_ready {u : State} (hc : (u.stream i).direction = .capture) (hr : ∀ x ∈ (u.stream i).queue, (u.desc x).state ≠ .ready)
    (hs : ∀ x ∈ (u.stream i).queue.head?, (u.desc x).spent = false) : u.Rests i := by
  refine ⟨hs, ?_⟩
  rw [State.nextEligible, hc]
  split
  · exact readyCapture_none_of_not_ready none hr
  · rfl

section
variable {Q S : FrameNo} {n : Nat}

/-- The queue's new last descriptor becomes eligible, and the queue is at rest (R32, R34, R36). -/
theorem settleAt_appended (hr : ∀ x ∈ (s.stream i).queue.head?, (s.desc x).spent = false) (hm : (s.stream i).moving = true)
    (hc : (s.stream i).direction = .capture) (hout : h ∉ (s.stream i).queue)
    (hf : ∀ x ∈ (s.stream i).queue, (s.desc x).fullyAssigned = true) (hd : d.state = .ready)
    (hQ : (s.appended i h d l).firstOpen (s.stream i).queue.getLast? t = Q) (hS : d.start.spanStart Q = S)
    (hn : lateCount S Q d.frames = n) (hspent : (d.captureStart S n).spent = false ∨ (s.stream i).queue ≠ []) :
    (s.appended i h d l).settleAt i t = s.lentAs i h (d.captureStart S n)
      { s.stream i with queue := (s.stream i).queue ++ [h], backlog := (s.stream i).backlog ++ d.lateEntries h S n } l := by
  have next := appended_next (l := l) hm hc hout hf hd
  have eligible : (s.appended i h d l).makeEligible i h (s.stream i).queue.getLast? t = s.lentAs i h (d.captureStart S n)
      { s.stream i with queue := (s.stream i).queue ++ [h], backlog := (s.stream i).backlog ++ d.lateEntries h S n } l := by
    rw [makeEligible_capture (appended_direction.trans hc)]
    exact lentAs_captureEligible (s.stream i).queue.getLast? t hQ hS hn
  have waiting := (d.captureStart_spec S n).1
  obtain ⟨x, q, hxq⟩ : ∃ x q, ((s.appended i h d l).stream i).queue = x :: q := by
    rw [appended_queue]
    exact List.exists_cons_of_ne_nil (by simp)
  rw [← eligible]
  refine settleAt_eligible hxq (appended_head (fun x => appended_desc) appended_queue hr
    (by rw [appended_desc_same]; exact not_spent_of_ready hd) x (by rw [hxq]; rfl)) next ?_
  rw [eligible]
  refine rests_of_none_ready (by rw [lentAs_stream]; exact hc) (fun y hy e => ?_) fun y hy => ?_
  · by_cases ey : y = h
    · rw [ey, lentAs_desc_same, waiting] at e
      cases e
    · rw [lentAs_stream] at hy
      have inQueue : y ∈ (s.stream i).queue := by simpa [ey] using hy
      rw [lentAs_desc_ne ey] at e
      have := Descriptor.eligible_of_fullyAssigned (hf y inQueue)
      rw [Descriptor.not_eligible_of_ready e] at this
      cases this
  · by_cases ey : y = h
    · rw [ey, lentAs_desc_same]
      refine hspent.resolve_right fun hne => ?_
      rw [lentAs_stream] at hy
      obtain ⟨z, q', hz⟩ := List.exists_cons_of_ne_nil hne
      rw [hz] at hy
      have : z = y := by simpa using hy
      exact hout (by rw [hz, this, ey]; simp)
    · rw [lentAs_desc_ne ey]
      refine hr y ?_
      rw [lentAs_stream] at hy
      cases hs : (s.stream i).queue with
      | nil => rw [hs] at hy; exact absurd (by simpa using hy.symm) ey
      | cons z q' => rw [hs] at hy; exact hy

/-- Alone in its queue and late in every position, the new descriptor retires within the request (R36, R44). -/
theorem settleAt_appended_alone (hs : (s.stream i).state = .running) (hc : (s.stream i).direction = .capture)
    (hq : (s.stream i).queue = []) (hd : d.state = .ready) (hw : d.written = 0)
    (hQ : (s.appended i h d l).firstOpen none t = Q) (hS : d.start.spanStart Q = S) (hn : lateCount S Q d.frames = d.frames) :
    (s.appended i h d l).settleAt i t =
      { s.lentAs i h ((d.captureStart S d.frames).retire .late).emptied (s.stream i) (l ++ d.heldPages) with
        claims := s.claims ++ [.done h] } := by
  have queue : ((s.appended i h d l).stream i).queue = [h] := by rw [appended_queue, hq]; rfl
  have moving : ((s.appended i h d l).stream i).moving = true := appended_moving.trans (by simp [Stream.moving, hs])
  have direction : ((s.appended i h d l).stream i).direction = .capture := appended_direction.trans hc
  have ready : ((s.appended i h d l).desc h).state = .ready := by rw [appended_desc_same]; exact hd
  obtain ⟨k, eq⟩ := settleAt_capture_retires (t := t) direction moving queue ready (by rw [appended_desc_same, hQ, hS]; exact hn)
  have eligible := lentAs_captureEligible (s := s) (d := d) (l := l) (st := { s.stream i with queue := (s.stream i).queue ++ [h] }) none t hQ hS hn
  have late : (d.captureStart S d.frames).resolvedOutcome = .late := by
    rw [captureStart_all]
    exact if_pos rfl
  have backlog : d.lateEntries h S d.frames = [] := if_pos rfl
  have unwritten : (d.captureStart S d.frames).written = 0 := by rw [captureStart_all]; exact hw
  have retired := lentAs_retireResolved_late (s := s) (i := i) (h := h) (l := l) late unwritten
    (st := { s.stream i with queue := (s.stream i).queue ++ [h], backlog := (s.stream i).backlog ++ d.lateEntries h S d.frames })
    (by rw [hq]; rfl) hs
  have still : ({ s.stream i with queue := [], backlog := (s.stream i).backlog ++ d.lateEntries h S d.frames } : Stream) = s.stream i := by
    rw [backlog, List.append_nil, ← hq]
  rw [eq, State.appended, eligible, retired]
  dsimp only
  rw [still]
  have held : (d.captureStart S d.frames).heldPages = d.heldPages := by
    rw [captureStart_all]
    rfl
  rw [held]
  refine settleQueue_rests _ (rests_of_empty ?_)
  exact (congrArg Stream.queue (lentAs_stream (s := s) (i := i) (h := h)
    (d := ((d.captureStart S d.frames).retire .late).emptied) (st := s.stream i) (l := l ++ d.heldPages))).trans hq

end

end

end Sys2Proof.Machine

/-! ## SUBMIT: what the request does (R28, R29, R32, R34, R36, R55) -/

namespace Sys2Proof.Machine

/-- R29, from the fields of the payload. -/
theorem submitted_eq (i : StreamNo) (st : Stream) (b g t0 t1 f0 f1 a b0 b1 b2 b3 : Byte) (A : Start) (ps : List PageNo) :
    submitted i st [b, g, t0, t1, f0, f1, a, b0, b1, b2, b3] A ps = { Descriptor.blank with
      state := if st.direction = .play then .loading else .ready
      stream := i, generation := st.generation, direction := st.direction, tag := t1 ++ t0, frames := f0.toNat + 256 * f1.toNat
      bytes := (f0.toNat + 256 * f1.toNat) * (st.map.length * st.width), start := A, pages := ps } := by
  have frames : submitFrames [b, g, t0, t1, f0, f1, a, b0, b1, b2, b3] = f0.toNat + 256 * f1.toNat := field2_toNat _ 4
  have tag : field2 [b, g, t0, t1, f0, f1, a, b0, b1, b2, b3] 2 = t1 ++ t0 := field2_eq _ 2
  rw [submitted, tag, submitBytes, frames]
  cases st.direction <;> rfl

/-- R34: the first frame open behind descriptor `k`, in the terms of frame numbers. -/
theorem firstOpen_behind {s : State} {k : Handle} {t : FrameTime} {D : FrameNo} (hD : t.captureD = D) :
    s.firstOpen (some k) t = match (s.desc k).span with
      | none => D
      | some S =>
        let after := S + BitVec.ofNat 32 (s.desc k).frames
        if 1 ≤ (after - D).toNat ∧ (after - D).toNat < 2 ^ 31 then after else D := by
  subst hD
  unfold State.firstOpen
  cases hs : (s.desc k).span with
  | none => simp only [hs]
  | some S =>
    simp only [hs]
    exact if_congr precedes_iff rfl rfl

/-- What a late retirement leaves of a fresh capture record (R44 steps 1 to 4). -/
theorem captureStart_retired {d : Descriptor} (S : FrameNo) (hf : 1 ≤ d.frames) (hc : d.counts = Counts.zero) (hg : d.gone = 0) :
    ((d.captureStart S d.frames).retire .late).emptied = { d with
      state := .retired, outcome := some .late, span := some S, assigned := d.frames, resolved := d.frames
      endFrame := some (S + BitVec.ofNat 32 (d.frames - 1)), gone := d.pages.length
      counts := { Counts.zero with late := d.frames } } := by
  rw [captureStart_all, hc, Descriptor.emptied, Descriptor.retire]
  simp only [hg, Nat.zero_max, reduceCtorEq, if_false, false_or, if_neg (Nat.ne_of_gt hf), Option.map_some, Nat.sub_self, frameOf]
  rfl

/-- The request is answered from the state in which its queue is at rest. -/
theorem submit_acts {s u : State} {r : Request} {rest : List Request} {p : List Byte} {i : StreamNo} {h : Handle} {A : Start}
    {n : Nat} {d : Descriptor} (hin : s.port.inbound = r :: rest) (hkind : r.kind = 0x30) (hp : r.payload = p) (hl : p.length = 11)
    (hi : (byteAt p 0).toNat = i.val) (hg : byteAt p 1 = (s.stream i).generation) (passes : (s.afterTaking rest).SubmitPasses p i h A)
    (hn : pagesFor (submitBytes p (s.stream i)) = n) (hd : submitted i (s.stream i) p A (s.freeList.take n) = d)
    (hu : ((s.afterTaking rest).appended i h d (s.freeList.drop n)).settle i = u) (port : u.port = { s.port with inbound := rest }) :
    exec .submit s = .next { u with port := s.port.answered rest r .ok (.submit i h n) } := by
  subst hp hn hd hu
  rw [← reply_eq port]
  have taken : exec .submit s = execSubmit s := rfl
  rw [taken, execSubmit, takeKind_acts (k := .submit) (check := State.checkSubmit) hin (by rw [hkind]; rfl) rfl (decide_eq_true hl)
    (checkSubmit_of_passes hi hg passes)]
  rfl

/-- Settles O34. -/
theorem submitLendsDescriptor : Obligations.SubmitLendsDescriptor := by
  intro s r rest b t0 t1 f0 f1 a b0 b1 b2 b3 i h hin hkind hp hi hfree hlow st frames bytes n h1 h2 ha hb hdepth hpages hload hst
    record lent queued resting
  have size : submitFrames r.payload = frames := by rw [hp]; exact field2_toNat _ 4
  have sized : submitBytes r.payload st = bytes := by rw [submitBytes, size]; rfl
  have passes : (s.afterTaking rest).SubmitPasses r.payload i h record.start :=
    { state := hst
      frames := by rw [size]; exact ⟨h1, h2⟩
      bytes := sized.trans_le hb
      tail := by
        rw [newestLoading_iff]
        cases hd : st.direction with
        | play => exact .inr (hload hd)
        | capture => exact .inl hd
      depth := hdepth
      free := lowestFree_eq hfree hlow
      start := by rw [hp]; exact (startOf_eq ha _).trans (congrArg (fun T => some (if a = 0 then Start.immediate else .at T)) (field4_eq _ 7))
      pages := (congrArg pagesFor sized).trans_le hpages }
  have acts : ∀ u, ((s.afterTaking rest).appended i h record (s.freeList.drop n)).settle i = u → u.port = { s.port with inbound := rest } →
      exec .submit s = .next { u with port := s.port.answered rest r .ok (.submit i h n) } := fun u hu port =>
    submit_acts hin hkind rfl (by rw [hp]; rfl) (by rw [hp]; exact hi) (by rw [hp]; rfl) passes (congrArg pagesFor sized)
      (by rw [hp]; exact submitted_eq i st b st.generation t0 t1 f0 f1 a b0 b1 b2 b3 _ _) hu port
  have frame : QueueFrame i ((s.afterTaking rest).appended i h record (s.freeList.drop n)) _ := settle_frame _ i
  have fresh : record.eligible = false := by
    cases hd : st.direction <;> simp [record, Descriptor.eligible, hd]
  have unspent : record.spent = false := by rw [Descriptor.spent, fresh]; rfl
  refine ⟨⟨_, acts _ rfl (frame.port), ?_, frame.claims, frame.free, fun j hj => ?_, fun k hk hq => ?_, ?_, ?_⟩, fun hidle hr => ?_,
    fun hrun hplay hr hn => ?_, fun front k back hrun hcap hr hout hq hf hk hn => ?_, fun hrun hcap hr hout hf => ?_⟩
  · exact congrArg (fun u : State => { u with port := s.port.answered rest r .ok (.submit i h n) }) frame.rest
  · exact (frame.others j hj).trans (lentAs_stream_ne hj)
  · refine (frame.descs k ?_).trans (appended_desc hk)
    rw [appended_queue]
    simpa [hk] using hq
  · exact congrArg Prod.fst ((frame.order h).trans (congrArg Descriptor.order appended_desc_same))
  · exact congrArg (fun o => o.2.1) ((frame.order h).trans (congrArg Descriptor.order appended_desc_same))
  · exact acts _ (settleAt_rests (appended_idle hr unspent (by simp [Stream.moving, show (s.stream i).state = .idle from hidle]))) rfl
  · exact acts _ (settleAt_rests (appended_play hr unspent hplay hn (by simp [record, hplay]))) rfl
  · exact acts _ (settleAt_rests (appended_capture hr unspent hcap hq hout hf hk hn)) rfl
  · intro dm D first S early
    have opens : ((s.afterTaking rest).appended i h record (s.freeList.drop n)).firstOpen st.queue.getLast? dm.now = first := by
      simp only [first]
      cases hlast : st.queue.getLast? with
      | none => rfl
      | some k =>
        have old : ((s.afterTaking rest).appended i h record (s.freeList.drop n)).desc k = s.desc k :=
          appended_desc fun e => hout (e ▸ List.mem_of_getLast? hlast)
        have behind := firstOpen_behind (s := (s.afterTaking rest).appended i h record (s.freeList.drop n)) (k := k) (t := dm.now)
          (D := D) rfl
        rw [old] at behind
        exact behind
    have spanned : record.start.spanStart first = S := by
      simp only [record, S]
      split <;> rfl
    have domain : (s.afterTaking rest).domain st.domain = dm := by
      simp only [dm]
      cases st.domain <;> rfl
    have ready : record.state = .ready := by simp [record, hcap]
    obtain ⟨some, none⟩ := lateCount_cases S first frames
    have moving : (s.stream i).moving = true := by simp [Stream.moving, show (s.stream i).state = .running from hrun]
    have joins : ∀ (m : Nat) (d' : Descriptor) (late : List BacklogEntry), lateCount S first frames = m → record.captureStart S m = d' →
        record.lateEntries h S m = late → d'.spent = false ∨ st.queue ≠ [] →
        exec .submit s = .next (lent d' { queued with backlog := st.backlog ++ late }) := fun m d' late hm hd' hl hsp => by
      subst hd' hl
      have appended := settleAt_appended (s := s.afterTaking rest) hr moving hcap hout hf ready opens spanned hm hsp
      rw [← domain] at appended
      exact acts _ (appended_settle.trans appended) rfl
    refine ⟨fun he => ?_, fun e1 e2 hlt => ?_, fun e1 e2 hle => ⟨fun hne => ?_, fun hempty => ?_⟩⟩
    · have count : lateCount S first frames = 0 := none (by rintro ⟨e1, e2⟩; omega)
      refine (joins 0 _ [] count (captureStart_some h1 S) (if_neg (Nat.ne_of_lt h1)) (.inl ?_)).trans ?_
      · exact (spent_iff rfl).mpr h1
      · rw [List.append_nil]
        rfl
    · have count : lateCount S first frames = early := (some ⟨e1, e2⟩).trans (Nat.min_eq_left hlt.le)
      refine (joins early _ _ count (captureStart_some hlt S) (if_neg (Nat.ne_of_lt hlt)) (.inl ?_)).trans ?_
      · exact (spent_iff rfl).mpr h1
      · simp only [zeroPositionsFrom, Nat.zero_add, frameOf]
    · have count : lateCount S first frames = frames := (some ⟨e1, e2⟩).trans (Nat.min_eq_right hle)
      refine (joins frames _ [] count (captureStart_all S) (if_pos rfl) (.inr hne)).trans ?_
      rw [List.append_nil]
      rfl
    · have count : lateCount S first frames = frames := (some ⟨e1, e2⟩).trans (Nat.min_eq_right hle)
      rw [hempty] at opens
      have alone := settleAt_appended_alone (s := s.afterTaking rest) hrun hcap hempty ready rfl opens spanned count
      rw [← domain] at alone
      refine (acts _ (appended_settle.trans alone) rfl).trans ?_
      rw [captureStart_retired S h1 rfl rfl, show record.pages.length = n from List.length_take_of_le hpages]
      rfl

end Sys2Proof.Machine

/-! ## PUT loads bytes (R31, R32, R33, R35, R56) -/

namespace Sys2Proof.Machine

/-! ### The bytes in the pages -/

/-- Every byte of a record that has its pages has an address (R56). -/
theorem addr_isSome {d : Descriptor} (hp : d.pages.length = (d.bytes + 511) / 512) {b : Nat} (hb : b < d.bytes) :
    ∃ a, d.addr b = some a := by
  have page : b / Config.pageSize < d.pages.length := by
    rw [hp, Config.pageSize]
    omega
  exact ⟨_, by rw [Descriptor.addr, List.getElem?_eq_getElem page]⟩

/-- Two bytes of a record whose pages are distinct have two addresses (R56). -/
theorem addr_injective {d : Descriptor} (hp : d.pages.Nodup) {b c a : Nat} (hb : d.addr b = some a) (hc : d.addr c = some a) : b = c := by
  obtain ⟨p, hp1, hp2⟩ : ∃ p, d.pages[b / Config.pageSize]? = some p ∧ pageAddr p (b % Config.pageSize) = a := by
    unfold Descriptor.addr at hb
    split at hb
    · next p h => exact ⟨p, h, Option.some.inj hb⟩
    · cases hb
  obtain ⟨q, hq1, hq2⟩ : ∃ q, d.pages[c / Config.pageSize]? = some q ∧ pageAddr q (c % Config.pageSize) = a := by
    unfold Descriptor.addr at hc
    split at hc
    · next p h => exact ⟨p, h, Option.some.inj hc⟩
    · cases hc
  have same : p.val = q.val ∧ b % 512 = c % 512 := by
    simp only [pageAddr, Config.pageSize] at hp2 hq2
    omega
  rw [Fin.ext same.1] at hp1
  have entry : b / 512 = c / 512 := (List.getElem?_inj (List.getElem?_eq_some_iff.mp hp1).1 hp).mp (hp1.trans hq1.symm)
  omega

/-- R56: the bytes stored are at the next offsets, and no other byte has changed. -/
theorem stored_mem {s : State} {h : Handle} {bs : List Byte} (hm : s.MemoryOk) (hp : (s.desc h).pages.Nodup)
    (hl : (s.desc h).pages.length = ((s.desc h).bytes + 511) / 512) (hn : (s.desc h).loaded + bs.length ≤ (s.desc h).bytes) :
    (∀ j (hj : j < bs.length), ∃ a, (s.desc h).addr ((s.desc h).loaded + j) = some a ∧ (s.stored h bs).mem.read a = bs[j]) ∧
      ∀ a, (∀ j, j < bs.length → (s.desc h).addr ((s.desc h).loaded + j) ≠ some a) → (s.stored h bs).mem.read a = s.mem.read a := by
  refine ⟨fun j hj => ?_, fun a ha => read_writeOffsets_ne _ _ _ _ ha⟩
  obtain ⟨a, ha⟩ := addr_isSome hl (b := (s.desc h).loaded + j) (by omega)
  refine ⟨a, ha, read_writeOffsets_at _ _ _ hm hj ha fun k _ hk => ?_⟩
  have := addr_injective hp hk ha
  omega

/-! ### The checks -/

theorem handleOf_isSome {b : Byte} : (handleOf b).isSome = true ↔ b.toNat ≤ 47 := by
  unfold handleOf
  split
  · next h => simp; omega
  · next h => simp; omega

theorem handleOf_eq {b : Byte} {h : Handle} (e : b.toNat = h.val) : handleOf b = some h := by
  rw [handleOf, dif_pos (by omega)]
  exact congrArg some (Fin.ext e)

theorem isLoadingOf_iff {s : State} {i : StreamNo} {b : Byte} : s.isLoadingOf i (handleOf b) = true ↔
    ∃ h : Handle, b.toNat = h.val ∧ h ∈ (s.stream i).queue ∧ (s.desc h).state = .loading := by
  constructor
  · intro e
    unfold handleOf at e
    split at e
    · next hb =>
      obtain ⟨hq, hl⟩ := Bool.and_eq_true_iff.mp e
      exact ⟨⟨b.toNat, hb⟩, rfl, of_decide_eq_true hq, of_decide_eq_true hl⟩
    · cases e
  · rintro ⟨h, e, hq, hl⟩
    rw [handleOf_eq e]
    exact Bool.and_eq_true_iff.mpr ⟨decide_eq_true hq, decide_eq_true hl⟩

theorem fitsLoad_iff {s : State} {b : Byte} {h : Handle} (e : b.toNat = h.val) (n : Nat) :
    s.fitsLoad (handleOf b) n = true ↔ ∀ h : Handle, b.toNat = h.val → (s.desc h).loaded + n ≤ (s.desc h).bytes := by
  rw [handleOf_eq e]
  refine decide_eq_true_iff.trans ⟨fun hf h' e' => ?_, fun hf => hf h e⟩
  rw [← show h = h' from Fin.ext (e.symm.trans e')]
  exact hf

/-- The checks that R31 lists after the stream number. -/
def State.putChecks (s : State) (p : List Byte) (i : StreamNo) : List (Bool × Status) :=
  [ (decide ((s.stream i).direction = .play) && (s.stream i).isOpen, .badState), generationCheck p (s.stream i),
    ((handleOf (byteAt p 2)).isSome, .badField), (s.isLoadingOf i (handleOf (byteAt p 2)), .notLoading),
    (s.fitsLoad (handleOf (byteAt p 2)) (putData p).length, .overlength) ]

theorem checkPut_refuses {s : State} {p : List Byte} {i : StreamNo} {st : Status} (hi : (byteAt p 0).toNat = i.val)
    (hf : firstFailure (s.putChecks p i) = some st) : s.checkPut p = .error st :=
  checkPut_error (State.checkStream_fails hi hf)

theorem checkPut_passes {s : State} {p : List Byte} {i : StreamNo} {h : Handle} (hi : (byteAt p 0).toNat = i.val)
    (hh : (byteAt p 2).toNat = h.val) (hf : firstFailure (s.putChecks p i) = none) : s.checkPut p = .ok (i, h) := by
  have checks := firstFailure_eq_none.mp hf
  simp only [State.putChecks, List.forall_mem_cons] at checks
  obtain ⟨accepts, own⟩ := checks
  have passes := State.checkStream_passes (s := s) (p := p) (accepts := fun st => decide (st.direction = .play) && st.isOpen)
    (own := fun i st => [generationCheck p st, ((handleOf (byteAt p 2)).isSome, .badField),
      (s.isLoadingOf i (handleOf (byteAt p 2)), .notLoading),
      (s.fitsLoad (handleOf (byteAt p 2)) (putData p).length, .overlength) ]) hi accepts
    (firstFailure_eq_none.mpr (by simpa only [List.forall_mem_cons] using own))
  unfold State.checkPut
  dsimp only
  rw [passes, handleOf_eq hh]

/-- The checks agree with the claims at one place, and at the places behind it once they hold at this one. -/
theorem refusedInOrder_cons_agree {p : Prop} {b : Bool} {st : Status} {cs : List (Prop × Status)} {bs : List (Bool × Status)}
    {out : Status → Prop} (hp : p ↔ b = true) (hout : ∀ st', firstFailure ((b, st) :: bs) = some st' → out st')
    (tail : p → (∀ st', firstFailure bs = some st' → out st') → refusedInOrder cs out) : refusedInOrder ((p, st) :: cs) out := by
  refine refusedInOrder_cons (fun hn => hout st ?_) fun hy => tail hy fun st' hf => hout st' ?_
  · rw [firstFailure_cons, if_neg fun e => hn (hp.mpr e)]
  · rw [firstFailure_cons, if_pos (hp.mp hy), hf]

/-! ### The state in which the bytes are in -/

theorem load_incomplete {d : Descriptor} {n : Nat} (h : d.loaded + n < d.bytes) : (d.load n).state = d.state :=
  if_neg (Nat.ne_of_lt h)

theorem load_complete {d : Descriptor} {n : Nat} (h : d.loaded + n = d.bytes) :
    d.load n = { d with loaded := d.bytes, state := .ready } := by
  rw [Descriptor.load, if_pos h, h]

section
variable {s : State} {i : StreamNo} {h : Handle} {bs : List Byte}

theorem stored_settle : (s.stored h bs).settle i = (s.stored h bs).settleAt i (s.domain (s.stream i).domain).now := by
  have stream : (s.stored h bs).stream i = s.stream i := rfl
  rw [State.settle, stream]
  cases (s.stream i).domain <;> rfl

/-- R32: the queue stays at rest while the head is not the completed descriptor of a moving stream. -/
theorem stored_rests (hp : (s.stream i).direction = .play) (hl : (s.desc h).state = .loading)
    (hr : ∀ k ∈ (s.stream i).queue.head?, (s.desc k).state ≠ .ready ∧ (s.desc k).spent = false)
    (hout : (s.stream i).state = .idle ∨ (s.stream i).queue.head? ≠ some h ∨ (s.desc h).loaded + bs.length < (s.desc h).bytes) :
    (s.stored h bs).Rests i := by
  refine ⟨fun k hk => ?_, ?_⟩
  · by_cases e : k = h
    · rw [e, stored_desc_same, Descriptor.spent, (load_not_eligible hl _).2]
      rfl
    · rw [stored_desc_ne e]
      exact (hr k hk).2
  · have stream : (s.stored h bs).stream i = s.stream i := rfl
    rw [State.nextEligible, stream, hp]
    split
    · next hm =>
      cases hq : (s.stream i).queue with
      | nil => rfl
      | cons k q =>
        refine if_neg ?_
        rw [hq] at hr hout
        by_cases e : k = h
        · have idle : (s.stream i).state ≠ .idle := fun e => by simp [Stream.moving, e] at hm
          have partly := (hout.resolve_left idle).resolve_left (by simp [e])
          rw [e, stored_desc_same, load_incomplete partly, hl]
          exact DescState.noConfusion
        · rw [stored_desc_ne e]
          exact (hr k rfl).1
    · rfl

end

/-! ### The head becomes eligible -/

section
variable {s : State} {i : StreamNo} {h : Handle} {q : List Handle} {t : FrameTime}

/-- R33 for a fresh record whose span is not late: only its state and its span change. -/
theorem makePlayEligible_on_time {S : FrameNo} (hf : 1 ≤ (s.desc h).frames) (hres : (s.desc h).resolved = 0)
    (hc : (s.desc h).counts = Counts.zero) (hg : (s.desc h).gone = 0) (hS : (s.desc h).start.spanStart (s.firstFree i t) = S)
    (hn : playLateCount S (s.firstFree i t) (s.desc h).frames = 0) :
    s.makePlayEligible i h t = s.modDesc h fun d => { d with state := .waiting, span := some S } := by
  have none : (({ s.desc h with state := .waiting, span := some S } : Descriptor).endedPages 0) = [] := by
    have entries : (({ s.desc h with state := .waiting, span := some S } : Descriptor).doneEntries 0) = 0 := by
      rw [Descriptor.doneEntries, if_neg (Nat.not_le.mpr hf), Nat.zero_mul, Nat.zero_div]
    rw [Descriptor.endedPages, show _ + 0 = 0 from hres, entries, List.take_zero, List.drop_nil]
  have record := State.modDesc_congr (s := s) (h := h) (f := fun d => d.playStart S (s.firstFree i t))
    (g := fun d => { d with state := .waiting, span := some S }) (playStart_none hres hc hg hf hn)
  rw [makePlayEligible_eq, hS, hn, none, State.release, List.append_nil]
  exact record

/-- R11 and R46: the stream whose only descriptor has retired. -/
theorem settleQueue_retired_alone {u : State} (k : Nat) (hq : (u.stream i).queue = [h]) :
    ((State.settleQueue i t k (u.retireResolved i h)).stream i).state =
      if (u.stream i).state = .stopping then .idle else (u.stream i).state := by
  have stream := retire_stream u i i h (u.desc h).resolvedOutcome
  rw [if_pos rfl, hq, List.erase_cons_head] at stream
  have queue := congrArg Stream.queue stream
  have state := congrArg Stream.state stream
  by_cases hs : (u.stream i).state = .stopping
  · have drained := drainIfEmpty_drains (state.trans hs) queue
    rw [if_pos hs, State.retireResolved, drained, settleQueue_rests _ (rests_of_empty ?_)]
    · simp
    · simpa using queue
  · rw [if_neg hs, State.retireResolved, drainIfEmpty_stays (.inl fun e => hs (state.symm.trans e)),
      settleQueue_rests _ (rests_of_empty queue), state]

end

/-! ### PUT -/

/-- R35 and R44 to R46 for the head that PUT completes: what is left in `w` of the record `d` and of the context `st`. -/
structure PlayStarts (s : State) (d : Descriptor) (w : State) (i : StreamNo) (h : Handle) (q : List Handle) (S : FrameNo)
    (early : Nat) : Prop where
  onTime : early = 0 ∨ 2 ^ 31 < early → w = s.modDesc h fun d => { d with state := .waiting, span := some S }
  partly : 1 ≤ early → early ≤ 2 ^ 31 → early < d.frames → w.desc h = { d with
    state := .waiting, span := some S, resolved := early, gone := (w.desc h).gone, counts := { Counts.zero with late := early } } ∧
    w.stream i = s.stream i ∧ w.claims = s.claims
  late : 1 ≤ early → early ≤ 2 ^ 31 → d.frames ≤ early →
    (w.desc h).state = .retired ∧ (w.desc h).outcome = some .late ∧ (w.desc h).span = some S ∧
      (w.desc h).counts = { Counts.zero with late := d.frames } ∧ h ∉ (w.stream i).queue ∧ s.claims ++ [Claim.done h] <+: w.claims ∧
      (q = [] → (w.stream i).state = if (s.stream i).state = .stopping then .idle else (s.stream i).state)

theorem settleAt_play_starts {s : State} {i : StreamNo} {h : Handle} {q : List Handle} {t : FrameTime} {E S : FrameNo}
    (hd : (s.stream i).direction = .play) (hm : (s.stream i).moving = true) (hq : (s.stream i).queue = h :: q)
    (hr : (s.desc h).state = .ready) (hout : h ∉ q) (hplay : (s.desc h).direction = .play) (hf : 1 ≤ (s.desc h).frames)
    (hres : (s.desc h).resolved = 0) (hc : (s.desc h).counts = Counts.zero) (hg : (s.desc h).gone = 0) (hE : s.firstFree i t = E)
    (hS : (s.desc h).start.spanStart E = S) : PlayStarts s (s.desc h) (s.settleAt i t) i h q S (E - S).toNat := by
  obtain ⟨some, none⟩ := playLateCount_cases S E (s.desc h).frames
  have waits := settleAt_play_waits (t := t) hd hm hq hr hres
  have retires := settleAt_play_retires (t := t) hd hm hq hr hres
  have desc : (s.makePlayEligible i h t).desc h = (s.desc h).playStart S E := by
    rw [makePlayEligible_desc, hE, hS]
  rw [hE, hS] at waits retires
  refine ⟨fun he => ?_, fun e1 e2 hlt => ?_, fun e1 e2 hle => ?_⟩
  · have count : playLateCount S E (s.desc h).frames = 0 := none (by rintro ⟨e1, e2⟩; omega)
    rw [waits (by rw [count]; exact hf)]
    exact makePlayEligible_on_time hf hres hc hg (hE ▸ hS) (hE ▸ count)
  · have count : playLateCount S E (s.desc h).frames = (E - S).toNat := (some ⟨e1, e2⟩).trans (Nat.min_eq_left hlt.le)
    rw [waits (by rw [count]; exact hlt), desc, playStart_fresh hres hc, count]
    exact ⟨rfl, makePlayEligible_stream i, makePlayEligible_claims⟩
  · have count : playLateCount S E (s.desc h).frames = (s.desc h).frames := (some ⟨e1, e2⟩).trans (Nat.min_eq_right hle)
    obtain ⟨k, eq⟩ := retires count
    have record := desc.trans (playStart_fresh hres hc S E)
    rw [count] at record
    have queue : ((s.makePlayEligible i h t).stream i).queue = h :: q := by rw [makePlayEligible_stream]; exact hq
    obtain ⟨h1, h2, h3, h4, h5, h6⟩ := settleQueue_retired (i := i) (t := t) (u := s.makePlayEligible i h t) k queue hout
      (by rw [record]) (by rw [record])
    rw [partClaim_play (by rw [record]; exact hplay), List.append_nil, makePlayEligible_claims] at h6
    rw [record] at h3 h4
    rw [eq]
    refine ⟨h1, h2, h3, h4, h5, h6, fun e => ?_⟩
    rw [settleQueue_retired_alone k (e ▸ queue), makePlayEligible_stream]

/-- The request is answered from the state in which its queue is at rest. -/
theorem put_acts {s : State} {r : Request} {rest : List Request} {i : StreamNo} {h : Handle} (hin : s.port.inbound = r :: rest)
    (hkind : r.kind = 0x31) (hl : lengthFits .put r.payload = true) (hi : (byteAt r.payload 0).toNat = i.val)
    (hh : (byteAt r.payload 2).toNat = h.val) (passes : firstFailure ((s.afterTaking rest).putChecks r.payload i) = none) :
    exec .put s = .next { ((s.afterTaking rest).stored h (putData r.payload)).settle i with
      port := s.port.answered rest r .ok (.put i h ((s.desc h).loaded + (putData r.payload).length)) } := by
  rw [← reply_eq (settle_frame ((s.afterTaking rest).stored h (putData r.payload)) i).port]
  have taken : exec .put s = execPut s := rfl
  rw [taken, execPut, takeKind_acts (k := .put) (check := State.checkPut) hin (by rw [hkind]; rfl) rfl hl (checkPut_passes hi hh passes)]
  rfl

/-- Settles O35. -/
theorem putLoadsBytes : Obligations.PutLoadsBytes := by
  intro s r rest b g bh data i hin hkind hp h1 h2 hi st
  have fits : lengthFits .put r.payload = true := by
    rw [hp, lengthFits]
    simp only [List.length_cons, Bool.and_eq_true, decide_eq_true_eq]
    omega
  have loads : putData r.payload = data := by rw [hp]; rfl
  have accepts : (st.direction = .play ∧ st.state ≠ .closed) ↔ (decide (st.direction = .play) && st.isOpen) = true := by
    simp [Stream.isOpen]
  have generation : g = st.generation ↔ (generationCheck r.payload st).1 = true := by
    rw [hp]
    simp [generationCheck]
  have handle : byteAt r.payload 2 = bh := by rw [hp]; rfl
  refine ⟨?_, fun h hh hplay hopen hg hq hl hfit hm hnodup hlen => ?_⟩
  · have refused : ∀ st', firstFailure ((s.afterTaking rest).putChecks r.payload i) = some st' →
        exec .put s = .next (s.answered rest r st' (.subject b)) := fun st' hf => by
      have hb : byteAt r.payload 0 = b := by rw [hp]; rfl
      exact hb ▸ congrArg Host.Outcome.next (takeKind_refused (check := State.checkPut) hin (by rw [hkind]; rfl) rfl fits rfl
        (checkPut_refuses (by rw [hp]; exact hi) hf))
    rw [State.putChecks, handle, loads] at refused
    refine refusedInOrder_cons_agree accepts refused fun _ refused => refusedInOrder_cons_agree generation refused fun _ refused =>
      refusedInOrder_cons_agree handleOf_isSome.symm refused fun hb refused => refusedInOrder_of_firstFailure ?_ refused
    exact .cons ⟨isLoadingOf_iff.symm, rfl⟩ (.cons ⟨(fitsLoad_iff (h := ⟨bh.toNat, by omega⟩) rfl _).symm, rfl⟩ .nil)
  · intro d
    have passes : firstFailure ((s.afterTaking rest).putChecks r.payload i) = none := by
      rw [State.putChecks, handle, loads, firstFailure_eq_none]
      simp only [List.forall_mem_cons, List.not_mem_nil, false_imp_iff, implies_true, and_true]
      refine ⟨accepts.mp ⟨hplay, hopen⟩, generation.mp hg, handleOf_isSome.mpr (by omega), isLoadingOf_iff.mpr ⟨h, hh, hq, hl⟩,
        (fitsLoad_iff hh _).mpr fun h' e => ?_⟩
      rw [← show h = h' from Fin.ext (hh.symm.trans e)]
      exact hfit
    have acted := put_acts hin hkind fits (by rw [hp]; exact hi) (by rw [handle]; exact hh) passes
    rw [loads] at acted
    have frame := settle_frame ((s.afterTaking rest).stored h data) i
    obtain ⟨bytes, others⟩ := stored_mem (s := s.afterTaking rest) (h := h) (bs := data) hm hnodup hlen hfit
    refine ⟨_, acted, rfl, fun j hj => ?_, fun a ha => ?_, fun hrest hnot => ?_, fun q hst hqueue hout hfull hdir hf hres hc hgone => ?_⟩
    · obtain ⟨a, h1, h2⟩ := bytes j hj
      exact ⟨a, h1, (congrArg (fun m => Memory.read m a) frame.mem).trans h2⟩
    · exact (congrArg (fun m => Memory.read m a) frame.mem).trans (others a ha)
    · have rests : ((s.afterTaking rest).stored h data).settle i = (s.afterTaking rest).stored h data :=
        stored_settle.trans (settleAt_rests (stored_rests hplay hl hrest hnot))
      have record := State.modDesc_congr (s := s) (h := h) (f := fun d => d.load data.length)
        (g := fun d => { d with
          loaded := d.loaded + data.length, state := if d.loaded + data.length = d.bytes then .ready else .loading })
        (by simp only [Descriptor.load, hl])
      rw [rests]
      exact congrArg (fun u : State => { u with
        mem := ((s.afterTaking rest).stored h data).mem, port := s.port.answered rest r .ok (.put i h (d.loaded + data.length)) }) record
    · intro first S early
      have record : ((s.afterTaking rest).stored h data).desc h = { d with loaded := d.bytes, state := .ready } :=
        stored_desc_same.trans (load_complete hfull)
      have domain : (s.afterTaking rest).domain st.domain = s.domain st.domain := by cases st.domain <;> rfl
      have free : ((s.afterTaking rest).stored h data).firstFree i ((s.afterTaking rest).domain st.domain).now = first :=
        congrArg (fun x : Domain => x.counter + BitVec.ofNat 32 st.ring.length) domain
      have spanned : (((s.afterTaking rest).stored h data).desc h).start.spanStart first = S := by
        rw [record]
        simp only [S]
        cases d.start <;> rfl
      have moving : (s.stream i).moving = true := by rcases hst with e | e <;> simp [Stream.moving, show (s.stream i).state = _ from e]
      have starts := settleAt_play_starts (s := (s.afterTaking rest).stored h data) hplay moving hqueue (by rw [record]) hout
        (by rw [record]; exact hdir) (by rw [record]; exact hf) (by rw [record]; exact hres) (by rw [record]; exact hc)
        (by rw [record]; exact hgone) free spanned
      have settled : ((s.afterTaking rest).stored h data).settle i =
          ((s.afterTaking rest).stored h data).settleAt i ((s.afterTaking rest).domain st.domain).now := stored_settle
      rw [← settled, record] at starts
      obtain ⟨onTime, partly, late⟩ := starts
      refine ⟨fun he => ?_, partly, fun e1 e2 e3 => ?_⟩
      · have whole := State.modDesc_modDesc s h (fun d => d.load data.length) fun d => { d with state := .waiting, span := some S }
        have loaded := State.modDesc_congr (s := s) (h := h)
          (f := fun d => ({ d.load data.length with state := .waiting, span := some S } : Descriptor))
          (g := fun d => { d with loaded := d.bytes, state := .waiting, span := some S })
          (congrArg (fun x : Descriptor => ({ x with state := .waiting, span := some S } : Descriptor)) (load_complete hfull))
        rw [onTime he]
        exact congrArg (fun u : State => { u with
          mem := ((s.afterTaking rest).stored h data).mem, port := s.port.answered rest r .ok (.put i h (d.loaded + data.length)) })
          (whole.trans loaded)
      · obtain ⟨l1, l2, l3, l4, l5, l6, l7⟩ := late e1 e2 e3
        refine ⟨l1, l2, l3, l4, l5, l6, fun e => (l7 e).trans ?_⟩
        have stream : ((s.afterTaking rest).stored h data).stream i = st := rfl
        rw [stream]
        rcases hst with running | stopping
        · rw [running]
        · rw [stopping, if_pos rfl, if_pos rfl]

end Sys2Proof.Machine

/-! ## A frame event around one of its streams (R97) -/

namespace Sys2Proof.Machine

/-! ### What is not the stream's -/

/-- From `s` to `t` nothing happens to stream `i`, to the descriptors of no other queue, and to what its samples are read from;
the queues of the other streams have only lost descriptors. -/
structure Outside (i : StreamNo) (s t : State) : Prop where
  stream : t.stream i = s.stream i
  descs : ∀ h, (∀ j, j ≠ i → h ∉ (s.stream j).queue) → t.desc h = s.desc h
  queues : ∀ j, j ≠ i → (t.stream j).queue ⊆ (s.stream j).queue
  held : t.heldInFlight i = s.heldInFlight i
  gathering : ∀ l, (t.lane l).gathering = (s.lane l).gathering
  claims : s.claims ⊆ t.claims

namespace Outside
variable {i : StreamNo} {s t u : State}

theorem refl (i : StreamNo) (s : State) : Outside i s s :=
  ⟨rfl, fun _ _ => rfl, fun _ _ => List.Subset.refl _, rfl, fun _ => rfl, List.Subset.refl _⟩

theorem trans (a : Outside i s t) (b : Outside i t u) : Outside i s u where
  stream := b.stream.trans a.stream
  descs h hh := (b.descs h fun j hj hm => hh j hj (a.queues j hj hm)).trans (a.descs h hh)
  queues j hj := List.Subset.trans (b.queues j hj) (a.queues j hj)
  held := b.held.trans a.held
  gathering l := (b.gathering l).trans (a.gathering l)
  claims := List.Subset.trans a.claims b.claims

/-- Streams, descriptors and the move as they were. -/
theorem of_eq (hs : ∀ j, t.stream j = s.stream j) (hd : ∀ h, t.desc h = s.desc h) (hi : t.inFlight = s.inFlight)
    (hg : ∀ l, (t.lane l).gathering = (s.lane l).gathering) (hc : s.claims ⊆ t.claims) : Outside i s t where
  stream := hs i
  descs h _ := hd h
  queues j _ := by rw [hs]; exact List.Subset.refl _
  held := heldInFlight_congr hi (congrArg Stream.generation (hs i))
  gathering := hg
  claims := hc

/-- The item of another stream. -/
theorem of_event {j : StreamNo} (hj : j ≠ i) (a : EventFrame j s t) : Outside i s t where
  stream := a.others i hj.symm
  descs h hh := a.descs h (hh j hj)
  queues k hk := by
    by_cases e : k = j
    · rw [e]; exact a.queue.subset
    · rw [a.others k e]; exact List.Subset.refl _
  held := by
    have generation := congrArg Stream.generation (a.others i hj.symm)
    rcases a.inFlight with e | ⟨p, -, e⟩
    · exact heldInFlight_congr e generation
    · exact heldInFlight_voided e generation
  gathering l := by simp only [State.lane, a.lanes]
  claims := a.claims.subset

/-- The descriptors of the stream's own queue are in no other. -/
theorem own (a : Outside i s t) (hs : s.PlacesOk) {h : Handle} (hh : h ∈ (s.stream i).queue) : t.desc h = s.desc h :=
  a.descs h fun _ hj hm => hs.disjoint hj hm hh

end Outside

section
variable {i : StreamNo} {s : State} {dom : Domain} {rx : RxFrame}

theorem raiseOnce_outside (u : State) (c : Claim) : Outside i u (u.raiseOnce c) := by
  refine .of_eq (by simp) (by simp) (by simp) (by simp) ?_
  rw [State.raiseOnce_claims]
  split
  · exact List.Subset.refl _
  · exact List.subset_append_left _ _

theorem laneEvent_outside (l : LaneNo) (W : Nat) (f : FrameNo) : Outside i s (s.laneEvent l W rx f) := by
  have step : ∀ (u : State) (g : Lane → Lane), (∀ ln, (g ln).gathering = ln.gathering) → Outside i u (u.modLane l g) := fun u g hg =>
    .of_eq (fun _ => rfl) (fun _ => rfl) rfl (fun k => by rw [State.lane_modLane]; split <;> simp_all) (List.Subset.refl _)
  have assembled := step s (fun ln => { ln with assembly := (stepAssembly (s.lane l).assembly f ((rxSlot rx W l 0).getLsbD 0)).1 })
    fun _ => rfl
  unfold State.laneEvent
  dsimp only
  split
  · exact assembled
  · next w _ =>
    split
    · exact assembled
    · exact (assembled.trans (step _ (fun ln => { ln with lastReported := some w, eventWord := some w }) fun _ => rfl)).trans
        (raiseOnce_outside _ _)

theorem itemEvent_outside {x : Item} (hx : x ≠ .stream i) : Outside i s (State.itemEvent dom rx s x) := by
  cases x with
  | stream j => exact .of_event (fun e => hx (congrArg Item.stream e)) (itemEvent_stream_frame dom rx s j)
  | lane l => exact laneEvent_outside l dom.width (dom.counter - 1)

theorem foldl_itemEvent_outside {xs : List Item} (hx : Item.stream i ∉ xs) : Outside i s (xs.foldl (State.itemEvent dom rx) s) := by
  induction xs generalizing s with
  | nil => exact .refl i s
  | cons x xs ih =>
    obtain ⟨head, tail⟩ := not_or.mp (mt List.mem_cons.mpr hx)
    exact (itemEvent_outside (Ne.symm head)).trans (ih tail)

theorem mapLanesOf_outside (d : DomainId) {f : LaneNo → Lane → Lane} (hf : ∀ l ln, (f l ln).gathering = ln.gathering) :
    Outside i s (s.mapLanesOf d f) :=
  .of_eq (by simp) (by simp) (by simp) (fun l => by rw [State.lane_mapLanesOf]; split <;> simp [hf]) (by simp)

theorem takeUp_gathering (ln : Lane) (n : FrameNo) : (ln.takeUp n).gathering = ln.gathering := by
  unfold Lane.takeUp
  split
  · split <;> rfl
  · rfl

theorem sent_outside (d : DomainId) : Outside i s (s.sent d) := by
  have transmitted : Outside i s (s.transmit d) := mapLanesOf_outside d fun _ ln => takeUp_gathering ln _
  unfold State.sent
  split
  · exact transmitted
  · exact transmitted.trans (mapLanesOf_outside d fun _ _ => rfl)

/-! ### The stream's own item -/

/-- The item of stream `i` finds `u`, and the rest of the frame event, from `s` to `t`, changes nothing that is the stream's (R97). -/
structure EventAround (i : StreamNo) (dom : Domain) (rx : RxFrame) (s u t : State) : Prop where
  before : Outside i s u
  stream : t.stream i = (State.itemEvent dom rx u (.stream i)).stream i
  descs : ∀ h ∈ (s.stream i).queue, t.desc h = (State.itemEvent dom rx u (.stream i)).desc h
  claims : (State.itemEvent dom rx u (.stream i)).claims ⊆ t.claims

theorem advanced_keeps (d : DomainId) : ((s.advanced d).stream i = s.stream i) ∧ (∀ h, (s.advanced d).desc h = s.desc h) ∧
    (s.advanced d).claims = s.claims := by
  refine ⟨?_, (advanced_aside s d).core.descs, ?_⟩
  · cases d <;> rfl
  · cases d <;> rfl

theorem frameEvent_around {d : DomainId} (hs : ∀ h ∈ (s.stream i).queue, ∀ j, j ≠ i → h ∉ (s.stream j).queue)
    (ho : (s.stream i).isOpen = true) (hd : (s.stream i).domain = d) :
    ∃ u, EventAround i (s.domain d) rx s u (s.frameEvent d rx) := by
  have nodup : (s.order d).Nodup := (sortRanked_perm _ _).nodup_iff.mpr (items_nodup s d)
  obtain ⟨front, back, split⟩ := List.append_of_mem (mem_order.mpr (mem_items_stream.mpr ⟨ho, hd⟩))
  rw [split] at nodup
  obtain ⟨-, tail, apart⟩ := List.nodup_append.mp nodup
  have before := (sent_outside (s := s) d).trans (foldl_itemEvent_outside (dom := s.domain d) (rx := rx)
    fun e : Item.stream i ∈ front => apart _ e _ List.mem_cons_self rfl)
  have own := itemEvent_stream_frame (s.domain d) rx (front.foldl (State.itemEvent (s.domain d) rx) (s.sent d)) i
  have after := foldl_itemEvent_outside (s := State.itemEvent (s.domain d) rx (front.foldl (State.itemEvent (s.domain d) rx) (s.sent d))
    (.stream i)) (dom := s.domain d) (rx := rx) (List.nodup_cons.mp tail).1
  rw [frameEvent_eq, split, List.foldl_append, List.foldl_cons]
  obtain ⟨stream, descs, claims⟩ := advanced_keeps (i := i) (s := back.foldl (State.itemEvent (s.domain d) rx) (State.itemEvent
    (s.domain d) rx (front.foldl (State.itemEvent (s.domain d) rx) (s.sent d)) (.stream i))) d
  refine ⟨_, before, stream.trans after.stream, fun h hh => (descs h).trans (after.descs h fun j hj hm => ?_), ?_⟩
  · rw [own.others j hj] at hm
    exact hs h hh j hj (before.queues j hj hm)
  · rw [claims]
    exact after.claims

/-- What takes a frame event of a domain runs it, on a state that differs in the domain's last good duration at most. -/
theorem takesFrameEvent_runs {c : Instr} {d : DomainId} (hc : s.takesFrameEvent c d rx) : ∃ g,
    exec c s = .next ((s.modDomain d fun dm => { dm with lastGood := g }).frameEvent d rx) := by
  rcases hc with ⟨rfl, source⟩ | ⟨bits, duration, rfl, source, locked, measuring, good⟩
  · refine ⟨(s.domain d).lastGood, congrArg Host.Outcome.next ((if_pos source).trans ?_)⟩
    refine congrArg (fun u : State => u.frameEvent d rx) ?_
    cases d <;> rfl
  · refine ⟨some duration, congrArg Host.Outcome.next ?_⟩
    have fits : (s.domain d).goodFrame bits = true := by rw [good]; exact beq_self_eq_true _
    rw [if_pos source, if_pos measuring, if_pos fits, State.goodFrameClosed, locked]

theorem takesFrameEvent_around {c : Instr} {d : DomainId} (hc : s.takesFrameEvent c d rx) (hs : s.PlacesOk)
    (ho : (s.stream i).isOpen = true) (hd : (s.stream i).domain = d) :
    ∃ t u g, exec c s = .next t ∧ EventAround i { s.domain d with lastGood := g } rx s u t := by
  obtain ⟨g, ran⟩ := takesFrameEvent_runs hc
  have marked : Outside i s (s.modDomain d fun dm => { dm with lastGood := g }) := .of_eq (by simp) (by simp) (by simp) (by simp) (by simp)
  have around := frameEvent_around (i := i) (s := s.modDomain d fun dm => { dm with lastGood := g }) (rx := rx) (d := d)
    (by simpa using fun h hh j hj hm => hs.disjoint hj hm hh) (by simpa using ho) (by simpa using hd)
  rw [State.domain_modDomain_same] at around
  obtain ⟨u, before, stream, descs, claims⟩ := around
  exact ⟨_, u, g, ran, marked.trans before, stream, fun h hh => descs h (by simpa using hh), claims⟩

end

end Sys2Proof.Machine

/-! ## What a delivered frame does to a capture stream (R18 to R22, R32, R34, R40, R41, R79) -/

namespace Sys2Proof.Machine

/-! ### Gap accounting -/

/-- The context after a frame that is no gap frame (R22). -/
def Stream.gapEnded (st : Stream) (f : FrameNo) : Stream :=
  { st with gapOpen := false, record := if st.gapOpen then { st.record with gapEnd := some f } else st.record }

/-- The context after a gap frame (R21). -/
def Stream.inGap (st : Stream) (f : FrameNo) : Stream :=
  if st.sounding then { st with
    gapOpen := true
    record := if st.gapOpen then { st.record with gapFrames := bump st.record.gapFrames } else
      { st.record with gapStart := some f, gapEnd := none, gapFrames := bump st.record.gapFrames } } else st

section
variable {s : State} {i : StreamNo} {f : FrameNo}

theorem raiseOnce_mem (s : State) (c : Claim) : c ∈ (s.raiseOnce c).claims := by
  rw [State.raiseOnce_claims]
  split
  · assumption
  · simp

theorem account_desc (c : FrameClass) (h : Handle) : (s.account i c f).desc h = s.desc h := (account_same s i c f).1.descs h

theorem account_nonGap : (s.account i .nonGap f).stream i = (s.stream i).gapEnded f ∧
    ((s.stream i).gapOpen = true → Claim.streamEvent i ∈ (s.account i .nonGap f).claims) := by
  unfold State.account Stream.gapEnded
  dsimp only
  split
  · refine ⟨?_, fun _ => raiseOnce_mem _ _⟩
    rw [State.raiseOnce_stream, State.stream_modStream_same]
    rfl
  · next gapped =>
    have closed : (s.stream i).gapOpen = false := by simpa using gapped
    refine ⟨?_, fun e => absurd e gapped⟩
    rw [← closed]

theorem account_gap : (s.account i .gap f).stream i = (s.stream i).inGap f ∧
    ((s.stream i).sounding = true → (s.stream i).gapOpen = false → Claim.streamEvent i ∈ (s.account i .gap f).claims) := by
  have stream := State.stream_modStream_same s i fun st => st.gapFrame f
  unfold State.account Stream.inGap
  dsimp only
  split
  · split
    · next gapped =>
      refine ⟨stream.trans ?_, fun _ e => ?_⟩
      · rw [Stream.gapFrame, if_pos gapped, ← gapped]
      · rw [gapped] at e
        cases e
    · next gapped =>
      refine ⟨?_, fun _ _ => raiseOnce_mem _ _⟩
      rw [State.raiseOnce_stream, stream, Stream.gapFrame, if_neg gapped]
  · next silent => exact ⟨rfl, fun e => absurd e silent⟩

end

/-! ### The frame is assigned -/

section
variable {s : State} {i : StreamNo} {h : Handle} {q : List Handle} {t : FrameTime} {f S : FrameNo} {xs : List Word32} {n : Nat}

/-- The backlog once entry `e` has joined it, after the test for an overrun (R79). -/
def State.joined (s : State) (i : StreamNo) (e : BacklogEntry) : List BacklogEntry :=
  if 4 ≤ s.heldCount i then convertOldestHeld ((s.stream i).backlog ++ [e]) else (s.stream i).backlog ++ [e]

theorem overrun_desc (x : Handle) : (s.overrun i).desc x = s.desc x := by
  unfold State.overrun
  split <;> rfl

theorem overrun_stream : (s.overrun i).stream i = { s.stream i with
    backlog := if 4 < s.heldCount i then convertOldestHeld (s.stream i).backlog else (s.stream i).backlog } := by
  unfold State.overrun
  split
  · next many =>
    have many : 4 < s.heldCount i := many
    rw [State.stream_modStream_same, if_pos many]
  · next few =>
    have few : ¬ 4 < s.heldCount i := few
    rw [if_neg few]

theorem assign_desc_same (p : Nat) : (s.assign i h p f xs).desc h = { s.desc h with state := .active, assigned := p + 1 } := by
  rw [assign_eq, overrun_desc, hold_desc_same]

theorem assign_desc_ne (p : Nat) {x : Handle} (hx : x ≠ h) : (s.assign i h p f xs).desc x = s.desc x := by
  rw [assign_eq, overrun_desc, hold_desc_ne s i p f xs hx]

theorem assign_stream (p : Nat) : (s.assign i h p f xs).stream i = { s.stream i with
    backlog := s.joined i { handle := h, position := p, frame := f, kind := .held xs }, sounding := true } := by
  have count : (s.hold i h p f xs).heldCount i = s.heldCount i + 1 := by
    rw [heldCount_of_backlog (hold_stream s i h p f xs) rfl, List.countP_append, List.countP_singleton, State.heldCount]
    exact Nat.add_right_comm _ 1 _
  have crowded : 4 < s.heldCount i + 1 ↔ 4 ≤ s.heldCount i := by omega
  rw [assign_eq, overrun_stream, hold_stream, count, State.joined]
  simp only [crowded]

theorem passOver_heldCount : (s.passOver i h n).heldCount i = s.heldCount i := by
  rw [heldCount_of_backlog (passOver_stream n) rfl, countP_append_zero fun e he => by rw [kind_of_mem_zeroPositionsFrom he]; rfl,
    State.heldCount]

theorem convertOldestHeld_at {front back : List BacklogEntry} {e : BacklogEntry} (hf : ∀ x ∈ front, x.kind.isHeld = false)
    (he : e.kind.isHeld = true) : convertOldestHeld (front ++ e :: back) = front ++ { e with kind := .lostZero } :: back := by
  induction front with
  | nil => exact if_pos he
  | cons x front ih =>
    have head : ¬ x.kind.isHeld = true := by simp [hf x List.mem_cons_self]
    rw [List.cons_append, convertOldestHeld, if_neg head, ih fun y hy => hf y (List.mem_cons_of_mem _ hy), List.cons_append]

theorem convertOldestHeld_length (b : List BacklogEntry) : (convertOldestHeld b).length = b.length := by
  have := congrArg List.length (convertOldestHeld_place b)
  simpa only [List.length_map] using this

/-! ### Which descriptor is offered the frame -/

theorem openDesc_head (he : (s.desc h).eligible = true) (hlt : (s.desc h).assigned < (s.desc h).frames) :
    s.openDesc (h :: q) = some h := by
  rw [State.openDesc, List.find?_cons_of_pos (by rw [he]; exact decide_eq_true hlt)]

theorem openDesc_full (hf : (s.desc h).frames ≤ (s.desc h).assigned) : s.openDesc (h :: q) = s.openDesc q := by
  rw [State.openDesc, List.find?_cons_of_neg (by simp [Nat.not_lt.mpr hf]), State.openDesc]

theorem openDesc_none (hf : ∀ x ∈ q, (s.desc x).fullyAssigned = true) : s.openDesc q = none := by
  refine List.find?_eq_none.mpr fun x hx => ?_
  obtain ⟨-, full⟩ := Bool.and_eq_true_iff.mp (hf x hx)
  simp [Nat.not_lt.mpr (of_decide_eq_true full)]

/-- R41: the frame lies `n` frames behind the first unassigned position. -/
theorem passedCount_eq (hS : (s.desc h).span = some S) (hn : (f - (S + BitVec.ofNat 32 (s.desc h).assigned)).toNat = n)
    (hlt : n < 2 ^ 31) : s.passedCount h f = min n ((s.desc h).frames - (s.desc h).assigned) := by
  obtain ⟨some, none⟩ := lateCount_cases (S + BitVec.ofNat 32 (s.desc h).assigned) f ((s.desc h).frames - (s.desc h).assigned)
  rw [State.passedCount, hS]
  rw [hn] at some none
  by_cases zero : n = 0
  · subst zero
    exact (none (by simp)).trans (Nat.zero_min _).symm
  · exact some ⟨Nat.one_le_iff_ne_zero.mpr zero, hlt⟩

theorem offer_assigns (k : Nat) (ho : s.openDesc (s.stream i).queue = some h) (hS : (s.desc h).span = some S)
    (hn : s.passedCount h f = n) (hlt : (s.desc h).assigned + n < (s.desc h).frames) (hf : frameOf S ((s.desc h).assigned + n) = f) :
    State.offer i t f xs (k + 1) s =
      (((s.passOver i h n).assign i h ((s.desc h).assigned + n) f xs).settleAt i t, true) := by
  rw [offer_succ, ho]
  dsimp only
  rw [hn, if_neg (Nat.not_le.mpr hlt), hS, Option.getD_some, if_pos hf]

theorem offer_passes (k : Nat) (ho : s.openDesc (s.stream i).queue = some h) (hn : s.passedCount h f = n)
    (hle : (s.desc h).frames ≤ (s.desc h).assigned + n) :
    State.offer i t f xs (k + 1) s = State.offer i t f xs k ((s.passOver i h n).settleAt i t) := by
  rw [offer_succ, ho]
  dsimp only
  rw [hn, if_pos hle]

theorem offer_waits (k : Nat) (ho : s.openDesc (s.stream i).queue = some h) (hS : (s.desc h).span = some S)
    (hn : s.passedCount h f = 0) (hlt : (s.desc h).assigned < (s.desc h).frames) (hf : frameOf S (s.desc h).assigned ≠ f) :
    State.offer i t f xs (k + 1) s = (s.passOver i h 0, false) := by
  rw [offer_succ, ho]
  dsimp only
  rw [hn, Nat.add_zero, if_neg (Nat.not_le.mpr hlt), hS, Option.getD_some, if_neg hf]

theorem offer_none (k : Nat) (ho : s.openDesc (s.stream i).queue = none) : State.offer i t f xs (k + 1) s = (s, false) := by
  rw [offer_succ, ho]

theorem captureEvent_offered {W : Nat} {rx : RxFrame} {w : State} {b : Bool} (hm : (s.stream i).moving = true)
    (ho : State.offer i t f (s.capturedSamples W rx (s.stream i)) ((s.stream i).queue.length + 1) s = (w, b)) :
    s.captureEvent i W rx f t = w.account i (if b then .nonGap else w.unassignedClass i f) f := by
  rw [State.captureEvent, if_pos hm, ho]

/-! ### The queue behind the head -/

/-- However far the queue behind it is made eligible, an eligible head with unresolved positions stays, and the backlog only
grows (R32, R36). -/
theorem settleQueue_grows (k : Nat) (hc : (s.stream i).direction = .capture) (hq : (s.stream i).queue = h :: q)
    (he : (s.desc h).eligible = true) (hr : (s.desc h).resolved < (s.desc h).frames) :
    (State.settleQueue i t k s).desc h = s.desc h ∧
      ∃ late, (State.settleQueue i t k s).stream i = { s.stream i with backlog := (s.stream i).backlog ++ late } := by
  induction k generalizing s with
  | zero => exact ⟨rfl, [], by rw [List.append_nil]; rfl⟩
  | succ k ih =>
    have unspent := (spent_iff he).mpr hr
    cases hn : s.nextEligible i with
    | none =>
      have rests : s.Rests i := ⟨fun x hx => by rw [hq] at hx; cases hx; exact unspent, hn⟩
      rw [settleQueue_rests _ rests]
      exact ⟨rfl, [], by rw [List.append_nil]⟩
    | some x =>
      obtain ⟨e, a⟩ := x
      have other : h ≠ e := fun eq => by
        have ready := (State.nextEligible_mem hn).2.1
        rw [← eq] at ready
        rw [Descriptor.not_eligible_of_ready ready] at he
        cases he
      rw [settleQueue_eligible k hq unspent hn, makeEligible_capture hc]
      obtain ⟨added, stream⟩ : ∃ added, (s.makeCaptureEligible i e a t).stream i =
          { s.stream i with backlog := (s.stream i).backlog ++ added } := ⟨_, makeCaptureEligible_stream a⟩
      have desc : (s.makeCaptureEligible i e a t).desc h = s.desc h := by
        rw [makeCaptureEligible_eq, State.modStream_desc, State.desc_modDesc_ne _ _ other]
      obtain ⟨desc', late, stream'⟩ := ih (s := s.makeCaptureEligible i e a t) (by rw [stream]; exact hc) (by rw [stream]; exact hq)
        (by rw [desc]; exact he) (by rw [desc]; exact hr)
      refine ⟨desc'.trans desc, added ++ late, ?_⟩
      rw [stream', stream, List.append_assoc]

end

end Sys2Proof.Machine

/-! ## The frame taken, passed by or waited for, case by case (R20, R32, R34, R40, R41) -/

namespace Sys2Proof.Machine

/-! ### Frame numbers -/

theorem frameOf_reached {f S : FrameNo} {p n : Nat} (hn : (f - (S + BitVec.ofNat 32 p)).toNat = n) : frameOf S (p + n) = f := by
  subst hn
  rw [frameOf, BitVec.ofNat_add, BitVec.ofNat_toNat, BitVec.setWidth_eq, ← BitVec.add_assoc, add_sub_cancel]

section
variable {f S : FrameNo} {m : Nat}

/-- A frame reached from `S` lies behind every start it has passed. -/
theorem not_before_reached (hf : frameOf S m = f) {k : Nat} (hk : k ≤ m) (hm : m < 2 ^ 31) :
    ¬ (1 ≤ (S + BitVec.ofNat 32 k - f).toNat ∧ (S + BitVec.ofNat 32 k - f).toNat < 2 ^ 31) := by
  subst hf
  rw [frameOf]
  rintro ⟨h1, h2⟩
  have : (S + BitVec.ofNat 32 k - (S + BitVec.ofNat 32 m)).toNat = (2 ^ 32 - (m - k)) % 2 ^ 32 := by
    simp only [BitVec.toNat_sub, BitVec.toNat_add, BitVec.toNat_ofNat]
    omega
  omega

theorem frameOf_succ (hf : frameOf S m = f) : S + BitVec.ofNat 32 (m + 1) = f + 1 := by
  rw [BitVec.ofNat_add, ← BitVec.add_assoc]
  exact congrArg (· + 1) hf

end

/-! ### The class of a frame that is not assigned (R20) -/

section
variable {s : State} {i : StreamNo} {f : FrameNo}

theorem unassignedClass_gap (h : ∀ x ∈ (s.stream i).queue, (s.desc x).state = .waiting → ∀ S, (s.desc x).span = some S →
    ¬ (1 ≤ (S - f).toNat ∧ (S - f).toNat < 2 ^ 31)) : s.unassignedClass i f = .gap := by
  refine if_neg fun e => ?_
  obtain ⟨x, hx, hw⟩ := List.any_eq_true.mp e
  obtain ⟨waiting, ahead⟩ := Bool.and_eq_true_iff.mp hw
  split at ahead
  · next S hS => exact h x hx (of_decide_eq_true waiting) S hS (precedes_iff.mp ahead)
  · cases ahead

theorem unassignedClass_wait {h : Handle} {S : FrameNo} (hh : h ∈ (s.stream i).queue) (hw : (s.desc h).state = .waiting)
    (hS : (s.desc h).span = some S) (h1 : 1 ≤ (S - f).toNat) (h2 : (S - f).toNat < 2 ^ 31) : s.unassignedClass i f = .nonGap := by
  refine if_pos (List.any_eq_true.mpr ⟨h, hh, ?_⟩)
  rw [decide_eq_true hw, hS]
  exact precedes_iff.mpr ⟨h1, h2⟩

end

/-! ### The descriptor behind a full one (R32, R34) -/

section
variable {s : State} {i : StreamNo} {h h' : Handle} {q : List Handle} {t : FrameTime} {f S : FrameNo} {xs : List Word32} {n : Nat}

/-- Behind a full head with unresolved positions stands one that has become eligible and is not full. -/
theorem rests_behind_full (hc : (s.stream i).direction = .capture) (hq : (s.stream i).queue = h :: h' :: q)
    (hfull : (s.desc h).fullyAssigned = true) (hr : (s.desc h).resolved < (s.desc h).frames) (hn : (s.desc h').state ≠ .ready)
    (hpart : (s.desc h').fullyAssigned = false) : s.Rests i := by
  refine ⟨fun x hx => ?_, ?_⟩
  · rw [hq] at hx
    cases hx
    exact (spent_iff (Descriptor.eligible_of_fullyAssigned hfull)).mpr hr
  · rw [State.nextEligible, hc, hq]
    split
    · refine readyCapture_stops (front := [h]) none (fun x hx => ?_) hn hpart
      rw [List.mem_singleton.mp hx]
      exact hfull
    · rfl

/-- The IMMEDIATE descriptor behind a full head becomes eligible, with no position late. -/
theorem settleAt_next (hc : (s.stream i).direction = .capture) (hm : (s.stream i).moving = true) (hq : (s.stream i).queue = h :: h' :: q)
    (hne : h ≠ h') (hfull : (s.desc h).fullyAssigned = true) (hr : (s.desc h).resolved < (s.desc h).frames)
    (hready : (s.desc h').state = .ready) (hstart : (s.desc h').start = .immediate) (hf : 1 ≤ (s.desc h').frames) {Q : FrameNo}
    (hQ : s.firstOpen (some h) t = Q) :
    (s.settleAt i t).desc h' = { s.desc h' with state := .waiting, span := some Q, assigned := 0 } ∧
      (s.settleAt i t).stream i = s.stream i ∧ (∀ x, x ≠ h' → (s.settleAt i t).desc x = s.desc x) ∧
      (s.settleAt i t).inFlight = s.inFlight := by
  have eligible := Descriptor.eligible_of_fullyAssigned hfull
  have unspent := (spent_iff eligible).mpr hr
  have notReady : (s.desc h).state ≠ .ready := fun e => by
    rw [Descriptor.not_eligible_of_ready e] at eligible
    cases eligible
  have next : s.nextEligible i = some (h', some h) := by
    rw [State.nextEligible, if_pos hm, hc, hq]
    simp [State.readyCapture, notReady, hfull, hready]
  have spanned : (s.desc h').start.spanStart Q = Q := by rw [hstart]; rfl
  have count : lateCount Q Q (s.desc h').frames = 0 := (lateCount_cases Q Q _).2 (by simp)
  have desc := makeCaptureEligible_desc (s := s) (i := i) (h := h') (t := t) (some h)
  have stream := makeCaptureEligible_stream (s := s) (i := i) (h := h') (t := t) (some h)
  have others : ∀ x, x ≠ h' → (s.makeCaptureEligible i h' (some h) t).desc x = s.desc x := fun x hx => by
    rw [makeCaptureEligible_eq, State.modStream_desc, State.desc_modDesc_ne _ _ hx]
  rw [hQ, spanned, count, captureStart_some hf] at desc
  rw [hQ, spanned, count, Descriptor.lateEntries, if_neg (Nat.ne_of_lt hf), zeroPositionsFrom, List.range_zero,
    List.map_nil, List.append_nil] at stream
  have settled : s.settleAt i t = s.makeCaptureEligible i h' (some h) t := by
    rw [← makeEligible_capture hc]
    refine settleAt_eligible hq unspent next ?_
    rw [makeEligible_capture hc]
    refine rests_behind_full (by rw [stream]; exact hc) (by rw [stream]; exact hq) (by rw [others h hne]; exact hfull)
      (by rw [others h hne]; exact hr) ?_ ?_
    · rw [desc]
      exact DescState.noConfusion
    · rw [desc]
      exact Bool.and_eq_false_iff.mpr (.inr (decide_eq_false (Nat.not_le.mpr hf)))
  rw [settled]
  exact ⟨desc, stream, others, by rw [makeCaptureEligible_eq]; rfl⟩

/-- With nothing behind it that is READY, a head that has unresolved positions rests (R32). -/
theorem settleAt_stays (hc : (s.stream i).direction = .capture) (hq : (s.stream i).queue = h :: q) (he : (s.desc h).eligible = true)
    (hr : (s.desc h).resolved < (s.desc h).frames) (hb : (s.desc h).fullyAssigned = false ∨ q = []) : s.settleAt i t = s := by
  have notReady : (s.desc h).state ≠ .ready := fun e => by
    rw [Descriptor.not_eligible_of_ready e] at he
    cases he
  refine settleAt_rests ⟨fun x hx => ?_, ?_⟩
  · rw [hq] at hx
    cases hx
    exact (spent_iff he).mpr hr
  · rw [State.nextEligible, hc, hq]
    split
    · rcases hb with e | e
      · exact readyCapture_stops (front := []) none (fun x hx => by cases hx) notReady e
      · subst e
        refine readyCapture_none_of_not_ready none fun x hx => ?_
        rw [List.mem_singleton.mp hx]
        exact notReady
    · rfl

/-! ### The frame taken -/

/-- The state in which the frame `n` positions behind the first unassigned one of descriptor `h` has been taken (R40, R41). -/
def State.taken (s : State) (i : StreamNo) (h : Handle) (n : Nat) (f : FrameNo) (xs : List Word32) : State :=
  (s.passOver i h n).assign i h ((s.desc h).assigned + n) f xs

theorem taken_desc_same : (s.taken i h n f xs).desc h =
    { s.desc h with state := .active, assigned := (s.desc h).assigned + n + 1 } := by
  rw [State.taken, assign_desc_same, passOver_desc_same]

theorem taken_desc_ne {x : Handle} (hx : x ≠ h) : (s.taken i h n f xs).desc x = s.desc x := by
  rw [State.taken, assign_desc_ne _ hx, passOver_desc_ne n hx]

/-- The backlog that the frame taken leaves (R40, R41, R79). -/
def State.takenBacklog (s : State) (i : StreamNo) (h : Handle) (S : FrameNo) (n : Nat) (f : FrameNo) (xs : List Word32) :
    List BacklogEntry :=
  (s.stream i).backlog ++ zeroPositionsFrom h S .lostZero (s.desc h).assigned n ++
    [{ handle := h, position := (s.desc h).assigned + n, frame := f, kind := .held xs }]

theorem taken_stream (hS : (s.desc h).span = some S) : (s.taken i h n f xs).stream i = { s.stream i with
    backlog := if 4 ≤ s.heldCount i then convertOldestHeld (s.takenBacklog i h S n f xs) else s.takenBacklog i h S n f xs
    sounding := true } := by
  rw [State.taken, assign_stream, State.joined, passOver_heldCount, passOver_stream, hS]
  rfl

/-- What is left in `v` when the frame has been taken, `n` positions behind the first unassigned one of the head `h`: `S` is its span
start (R18, R22, R32, R34, R40, R41, R79). -/
structure FrameTaken (s v : State) (i : StreamNo) (h : Handle) (q : List Handle) (S : FrameNo) (n : Nat) (f : FrameNo)
    (xs : List Word32) : Prop where
  desc : v.desc h = { s.desc h with state := .active, assigned := (s.desc h).assigned + n + 1 }
  claims : (s.stream i).gapOpen = true → Claim.streamEvent i ∈ v.claims
  stream : ∃ late, v.stream i = { (s.stream i).gapEnded f with
    sounding := true
    backlog := (if 4 ≤ s.heldCount i then convertOldestHeld (s.takenBacklog i h S n f xs) else s.takenBacklog i h S n f xs) ++ late } ∧
    ((s.desc h).assigned + n + 1 < (s.desc h).frames → late = [] ∧ ∀ x, x ≠ h → v.desc x = s.desc x) ∧
    ∀ h' q', (s.desc h).assigned + n + 1 = (s.desc h).frames → q = h' :: q' → (s.desc h').state = .ready →
      (s.desc h').start = .immediate → 1 ≤ (s.desc h').frames → late = [] ∧
      v.desc h' = { s.desc h' with state := .waiting, span := some (f + 1), assigned := 0 }

theorem captureEvent_takes {W : Nat} {rx : RxFrame} (hc : (s.stream i).direction = .capture) (hm : (s.stream i).moving = true)
    (hq : (s.stream i).queue = h :: q) (hout : h ∉ q) (he : (s.desc h).eligible = true) (hS : (s.desc h).span = some S)
    (hr : (s.desc h).resolved ≤ (s.desc h).assigned) (hlt : (s.desc h).assigned < (s.desc h).frames)
    (hn : (f - (S + BitVec.ofNat 32 (s.desc h).assigned)).toNat = n) (hn' : n < 2 ^ 31) (hshort : (s.desc h).assigned + n < (s.desc h).frames)
    (ht : t.captureD = f) :
    FrameTaken s (s.captureEvent i W rx f t) i h q S n f (s.capturedSamples W rx (s.stream i)) := by
  have count : s.passedCount h f = n := (passedCount_eq hS hn hn').trans (Nat.min_eq_left (by omega))
  have reached := frameOf_reached hn
  have offered := offer_assigns (i := i) (t := t) (xs := s.capturedSamples W rx (s.stream i)) (s.stream i).queue.length
    (by rw [hq]; exact openDesc_head he hlt) hS count hshort reached
  rw [captureEvent_offered hm offered, if_pos rfl]
  generalize s.capturedSamples W rx (s.stream i) = xs
  change FrameTaken s (((s.taken i h n f xs).settleAt i t).account i .nonGap f) i h q S n f xs
  have desc := taken_desc_same (s := s) (i := i) (h := h) (n := n) (f := f) (xs := xs)
  have others : ∀ x, x ≠ h → (s.taken i h n f xs).desc x = s.desc x := fun x hx => taken_desc_ne hx
  have stream := taken_stream (i := i) (n := n) (f := f) (xs := xs) hS
  generalize s.taken i h n f xs = w at desc others stream
  have capture : (w.stream i).direction = .capture := by rw [stream]; exact hc
  have queue : (w.stream i).queue = h :: q := by rw [stream]; exact hq
  have eligible : (w.desc h).eligible = true := by rw [desc]; rfl
  have unresolved : (w.desc h).resolved < (w.desc h).frames := by rw [desc]; exact Nat.lt_of_le_of_lt hr hlt
  obtain ⟨grown, late, grows⟩ := settleQueue_grows (t := t) (w.turns i) capture queue eligible unresolved
  obtain ⟨account, gap⟩ := account_nonGap (s := w.settleAt i t) (i := i) (f := f)
  have settled : (w.settleAt i t).stream i = { w.stream i with backlog := (w.stream i).backlog ++ late } := grows
  rw [settled, stream] at account gap
  refine ⟨(account_desc _ _).trans (grown.trans desc), gap, late, account, fun hshort' => ?_, fun h' q' hfull hq' hready hstart hf => ?_⟩
  · have stays : w.settleAt i t = w := settleAt_stays capture queue eligible unresolved (.inl ?_)
    · refine ⟨?_, fun x hx => ?_⟩
      · rw [stays] at settled
        have := congrArg (fun st : Stream => st.backlog.length) settled
        simpa using this
      · rw [account_desc, stays, others x hx]
    · rw [desc]
      exact Bool.and_eq_false_iff.mpr (.inr (decide_eq_false (Nat.not_le.mpr hshort')))
  · subst hq'
    have ne : h ≠ h' := fun e => hout (e ▸ List.mem_cons_self)
    have spanned : w.firstOpen (some h) t = f + 1 := by
      have after : S + BitVec.ofNat 32 (s.desc h).frames = f + 1 := by rw [← hfull]; exact frameOf_succ reached
      refine (firstOpen_behind ht).trans ?_
      rw [desc]
      dsimp only
      rw [hS]
      dsimp only
      rw [after, if_pos]
      constructor <;> bv_omega
    obtain ⟨next, same, -⟩ := settleAt_next capture (by rw [stream]; exact hm) queue ne
      (by rw [desc]; exact Bool.and_eq_true_iff.mpr ⟨rfl, decide_eq_true (Nat.le_of_eq hfull.symm)⟩) unresolved
      (by rw [others h' ne.symm]; exact hready) (by rw [others h' ne.symm]; exact hstart) (by rw [others h' ne.symm]; exact hf) spanned
    refine ⟨?_, ?_⟩
    · rw [same] at settled
      have := congrArg (fun st : Stream => st.backlog.length) settled
      simpa using this
    · rw [account_desc, next, others h' ne.symm]

/-! ### The head passed by (R20, R41) -/

/-- A head that is full stays as it is while the frame is offered to the descriptors behind it. -/
theorem offer_keeps_full (k : Nat) (hc : (s.stream i).direction = .capture) (hq : (s.stream i).queue = h :: q)
    (hfull : (s.desc h).fullyAssigned = true) (hr : (s.desc h).resolved < (s.desc h).frames) :
    (State.offer i t f xs k s).1.desc h = s.desc h := by
  induction k generalizing s with
  | zero => rfl
  | succ k ih =>
    have eligible := Descriptor.eligible_of_fullyAssigned hfull
    rw [offer_succ]
    split
    · rfl
    · next x hx =>
      have other : h ≠ x := fun e => by
        have part := (State.openDesc_mem hx).2.2
        obtain ⟨-, full⟩ := Bool.and_eq_true_iff.mp hfull
        have full : (s.desc h).frames ≤ (s.desc h).assigned := of_decide_eq_true full
        rw [← e] at part
        omega
      have settles : ∀ u : State, (∃ b c, u.stream i = { s.stream i with backlog := b, sounding := c }) → u.desc h = s.desc h →
          (u.settleAt i t).desc h = s.desc h ∧ ((u.settleAt i t).stream i).direction = .capture ∧
            ((u.settleAt i t).stream i).queue = h :: q := fun u ⟨b, c, stream⟩ same => by
        obtain ⟨desc, late, grown⟩ := settleQueue_grows (t := t) (u.turns i) (by rw [stream]; exact hc) (by rw [stream]; exact hq)
          (by rw [same]; exact eligible) (by rw [same]; exact hr)
        rw [stream] at grown
        exact ⟨desc.trans same, (congrArg Stream.direction grown).trans hc, (congrArg Stream.queue grown).trans hq⟩
      dsimp only
      split
      · obtain ⟨desc, direction, queue⟩ := settles _ ⟨_, _, passOver_stream (s.passedCount x f)⟩ (passOver_desc_ne _ other)
        rw [ih direction queue (by rw [desc]; exact hfull) (by rw [desc]; exact hr), desc]
      · split
        · have stream := assign_stream (s := s.passOver i x (s.passedCount x f)) (i := i) (h := x) (f := f) (xs := xs)
            ((s.desc x).assigned + s.passedCount x f)
          rw [passOver_stream] at stream
          exact (settles _ ⟨_, _, stream⟩ ((assign_desc_ne _ other).trans (passOver_desc_ne _ other))).1
        · exact passOver_desc_ne _ other

/-- What is left in `v` when the frame lies beyond the head `h`, whose span starts at `S`. -/
structure HeadPassed (s v : State) (i : StreamNo) (h : Handle) (q : List Handle) (S f : FrameNo) (xs : List Word32) : Prop where
  desc : v.desc h = { s.desc h with assigned := (s.desc h).frames }
  alone : q = [] → v.stream i = { (s.stream i).inGap f with
      backlog := (s.stream i).backlog ++
        zeroPositionsFrom h S .lostZero (s.desc h).assigned ((s.desc h).frames - (s.desc h).assigned) } ∧
    ((s.stream i).sounding = true → (s.stream i).gapOpen = false → Claim.streamEvent i ∈ v.claims)
  next : ∀ h' q', q = h' :: q' → (s.desc h').state = .ready → (s.desc h').start = .immediate → 2 ≤ (s.desc h').frames →
    s.heldCount i < 4 → v.desc h' = { s.desc h' with state := .active, span := some f, assigned := 1 } ∧
    v.stream i = { (s.stream i).gapEnded f with
      sounding := true
      backlog := (s.stream i).backlog ++
        zeroPositionsFrom h S .lostZero (s.desc h).assigned ((s.desc h).frames - (s.desc h).assigned) ++
        [{ handle := h', position := 0, frame := f, kind := .held xs }] }

theorem inGap_backlog (st : Stream) (f : FrameNo) (b : List BacklogEntry) :
    ({ st with backlog := b } : Stream).inGap f = { st.inGap f with backlog := b } := by
  unfold Stream.inGap
  dsimp only
  split <;> rfl

theorem captureEvent_passes {W : Nat} {rx : RxFrame} (hc : (s.stream i).direction = .capture) (hm : (s.stream i).moving = true)
    (hq : (s.stream i).queue = h :: q) (hout : h ∉ q) (he : (s.desc h).eligible = true) (hS : (s.desc h).span = some S)
    (hr : (s.desc h).resolved ≤ (s.desc h).assigned) (hlt : (s.desc h).assigned < (s.desc h).frames)
    (hn : (f - (S + BitVec.ofNat 32 (s.desc h).assigned)).toNat = n) (hn' : (s.desc h).assigned + n < 2 ^ 31)
    (hle : (s.desc h).frames ≤ (s.desc h).assigned + n) (ht : t.captureD = f) :
    HeadPassed s (s.captureEvent i W rx f t) i h q S f (s.capturedSamples W rx (s.stream i)) := by
  have count : s.passedCount h f = (s.desc h).frames - (s.desc h).assigned :=
    (passedCount_eq hS hn (by omega)).trans (Nat.min_eq_right (by omega))
  have all : (s.desc h).assigned + ((s.desc h).frames - (s.desc h).assigned) = (s.desc h).frames := by omega
  have reached := frameOf_reached hn
  have offered := offer_passes (i := i) (t := t) (xs := s.capturedSamples W rx (s.stream i)) (s.stream i).queue.length
    (by rw [hq]; exact openDesc_head he hlt) count (Nat.le_of_eq all.symm)
  have event := captureEvent_offered (W := W) (rx := rx) hm offered
  rw [event]
  generalize s.capturedSamples W rx (s.stream i) = xs
  have desc := passOver_desc_same (s := s) (i := i) (h := h) ((s.desc h).frames - (s.desc h).assigned)
  have others : ∀ x, x ≠ h → (s.passOver i h ((s.desc h).frames - (s.desc h).assigned)).desc x = s.desc x := fun x hx => passOver_desc_ne _ hx
  have stream := passOver_stream (s := s) (i := i) (h := h) ((s.desc h).frames - (s.desc h).assigned)
  have held := passOver_heldCount (s := s) (i := i) (h := h) (n := (s.desc h).frames - (s.desc h).assigned)
  rw [all] at desc
  rw [hS, Option.getD_some] at stream
  generalize s.passOver i h ((s.desc h).frames - (s.desc h).assigned) = w at desc others stream held ⊢
  have capture : (w.stream i).direction = .capture := by rw [stream]; exact hc
  have queue : (w.stream i).queue = h :: q := by rw [stream]; exact hq
  have full : (w.desc h).fullyAssigned = true := by
    rw [desc]
    exact Bool.and_eq_true_iff.mpr ⟨he, decide_eq_true (Nat.le_refl _)⟩
  have eligible := Descriptor.eligible_of_fullyAssigned full
  have unresolved : (w.desc h).resolved < (w.desc h).frames := by rw [desc]; exact Nat.lt_of_le_of_lt hr hlt
  refine ⟨?_, fun hq' => ?_, fun h' q' hq' hready hstart hf hheld => ?_⟩
  · obtain ⟨kept, late, grown⟩ := settleQueue_grows (t := t) (w.turns i) capture queue eligible unresolved
    have kept : (w.settleAt i t).desc h = w.desc h := kept
    have grown : (w.settleAt i t).stream i = { w.stream i with backlog := (w.stream i).backlog ++ late } := grown
    rw [account_desc, offer_keeps_full _ (by rw [grown]; exact capture) (by rw [grown]; exact queue) (by rw [kept]; exact full)
      (by rw [kept]; exact unresolved), kept, desc]
  · subst hq'
    have stays : w.settleAt i t = w := settleAt_stays capture queue eligible unresolved (.inr rfl)
    have fuel : (s.stream i).queue.length = 0 + 1 := by rw [hq]; rfl
    have unoffered : w.openDesc (w.stream i).queue = none := openDesc_none fun x hx => by
      rw [queue, List.mem_singleton] at hx
      rw [hx]
      exact full
    rw [stays, fuel, offer_none 0 unoffered]
    have gap : w.unassignedClass i f = .gap := unassignedClass_gap fun x hx _ S' hS' => by
      rw [queue, List.mem_singleton] at hx
      rw [hx, desc] at hS'
      cases hS.symm.trans hS'
      have := not_before_reached reached (Nat.zero_le _) hn'
      rwa [BitVec.add_zero] at this
    obtain ⟨account, claims⟩ := account_gap (s := w) (i := i) (f := f)
    rw [if_neg Bool.false_ne_true, gap, account, stream, inGap_backlog]
    rw [stream] at claims
    exact ⟨rfl, claims⟩
  · subst hq'
    have ne : h ≠ h' := fun e => hout (e ▸ List.mem_cons_self)
    have spanned : w.firstOpen (some h) t = f := by
      refine (firstOpen_behind ht).trans ?_
      rw [desc]
      dsimp only
      rw [hS]
      exact if_neg (not_before_reached reached hle hn')
    obtain ⟨next, same, kept, flight⟩ := settleAt_next capture (by rw [stream]; exact hm) queue ne full unresolved
      (by rw [others h' ne.symm]; exact hready) (by rw [others h' ne.symm]; exact hstart)
      (by rw [others h' ne.symm]; exact Nat.le_of_succ_le hf) spanned
    have few : ¬ 4 ≤ (w.settleAt i t).heldCount i := by
      rw [State.heldCount, heldInFlight_congr flight (by rw [same]), same, ← State.heldCount, held]
      exact Nat.not_le.mpr hheld
    rw [others h' ne.symm] at next
    generalize w.settleAt i t = u at next same kept few ⊢
    have opens : u.openDesc (u.stream i).queue = some h' := by
      rw [same, queue, openDesc_full (by rw [kept h ne, desc])]
      exact openDesc_head (by rw [next]; rfl) (by rw [next]; exact Nat.lt_of_succ_le (Nat.le_of_succ_le hf))
    have start : (u.desc h').span = some f := by rw [next]
    have assigned : (u.desc h').assigned = 0 := by rw [next]
    have frames : (u.desc h').frames = (s.desc h').frames := by rw [next]
    have none : u.passedCount h' f = 0 :=
      (passedCount_eq (n := 0) start (by rw [assigned, BitVec.add_zero, BitVec.sub_self]; rfl) (by decide)).trans (Nat.zero_min _)
    have fuel : (s.stream i).queue.length = q'.length + 1 + 1 := by rw [hq]; rfl
    have offers := offer_assigns (i := i) (t := t) (xs := xs) (q'.length + 1) opens start none (by rw [assigned, frames]; omega)
      (by rw [assigned]; exact BitVec.add_zero f)
    rw [fuel, offers, if_pos rfl, account_desc]
    change ((u.taken i h' 0 f xs).settleAt i t).desc h' = _ ∧ (((u.taken i h' 0 f xs).settleAt i t).account i .nonGap f).stream i = _
    have desc' := taken_desc_same (s := u) (i := i) (h := h') (n := 0) (f := f) (xs := xs)
    have head := taken_desc_ne (s := u) (i := i) (n := 0) (f := f) (xs := xs) ne
    have stream' := taken_stream (i := i) (n := 0) (f := f) (xs := xs) start
    have nothing : zeroPositionsFrom h' f .lostZero 0 0 = [] := rfl
    rw [if_neg few, State.takenBacklog, assigned, same, stream, nothing, List.append_nil] at stream'
    rw [next] at desc'
    rw [kept h ne] at head
    generalize u.taken i h' 0 f xs = y at desc' head stream' ⊢
    have rests : y.settleAt i t = y := settleAt_rests <| rests_behind_full (by rw [stream']; exact hc) (by rw [stream']; exact hq)
      (by rw [head]; exact full) (by rw [head]; exact unresolved) (by rw [desc']; exact DescState.noConfusion)
      (by rw [desc']; exact decide_eq_false (Nat.not_le.mpr hf))
    rw [rests, account_nonGap.1, desc', stream']
    exact ⟨rfl, rfl⟩

/-! ### No descriptor waits for the frame, or one waits for a later frame (R19, R20) -/

theorem captureEvent_waits {W : Nat} {rx : RxFrame} (hm : (s.stream i).moving = true) (hq : (s.stream i).queue = h :: q)
    (hw : (s.desc h).state = .waiting) (hS : (s.desc h).span = some S) (ha : (s.desc h).assigned = 0) (hf : 1 ≤ (s.desc h).frames)
    (h1 : 1 ≤ (S - f).toNat) (h2 : (S - f).toNat < 2 ^ 31) :
    (s.captureEvent i W rx f t).stream i = (s.stream i).gapEnded f ∧
      ((s.stream i).gapOpen = true → Claim.streamEvent i ∈ (s.captureEvent i W rx f t).claims) ∧
      ∀ x, (s.captureEvent i W rx f t).desc x = s.desc x := by
  have eligible : (s.desc h).eligible = true := by rw [Descriptor.eligible, hw]; rfl
  have count : s.passedCount h f = 0 := by
    rw [State.passedCount, hS, ha]
    refine (lateCount_cases _ _ _).2 ?_
    rw [Option.getD_some, frameOf, BitVec.add_zero]
    rintro ⟨e1, e2⟩
    bv_omega
  have later : frameOf S (s.desc h).assigned ≠ f := by
    rw [ha, frameOf, BitVec.add_zero]
    rintro rfl
    rw [BitVec.sub_self] at h1
    exact absurd h1 (by decide)
  have offered := offer_waits (i := i) (t := t) (xs := s.capturedSamples W rx (s.stream i)) (s.stream i).queue.length
    (by rw [hq]; exact openDesc_head eligible (by omega)) hS count (by omega) later
  rw [captureEvent_offered hm offered]
  have desc : ∀ x, (s.passOver i h 0).desc x = s.desc x := fun x => by
    by_cases e : x = h
    · rw [e]
      exact passOver_desc_same 0
    · exact passOver_desc_ne 0 e
  have stream : (s.passOver i h 0).stream i = s.stream i := by
    rw [passOver_stream, zeroPositionsFrom, List.range_zero, List.map_nil, List.append_nil]
  rw [if_neg Bool.false_ne_true, unassignedClass_wait (h := h) (by rw [stream, hq]; exact List.mem_cons_self) (by rw [desc]; exact hw)
    (by rw [desc]; exact hS) h1 h2]
  obtain ⟨account, claims⟩ := account_nonGap (s := s.passOver i h 0) (i := i) (f := f)
  rw [stream] at account claims
  exact ⟨account, claims, fun x => (account_desc _ x).trans (desc x)⟩

theorem captureEvent_unclaimed {W : Nat} {rx : RxFrame} (hm : (s.stream i).moving = true)
    (hfull : ∀ x ∈ (s.stream i).queue, (s.desc x).fullyAssigned = true)
    (hS : ∀ x ∈ (s.stream i).queue, ∀ S, (s.desc x).span = some S → ¬ (1 ≤ (S - f).toNat ∧ (S - f).toNat < 2 ^ 31)) :
    (s.captureEvent i W rx f t).stream i = (s.stream i).inGap f ∧
      ((s.stream i).sounding = true → (s.stream i).gapOpen = false → Claim.streamEvent i ∈ (s.captureEvent i W rx f t).claims) ∧
      ∀ x, (s.captureEvent i W rx f t).desc x = s.desc x := by
  have offered := offer_none (i := i) (t := t) (f := f) (xs := s.capturedSamples W rx (s.stream i)) (s.stream i).queue.length
    (openDesc_none hfull)
  rw [captureEvent_offered hm offered, if_neg Bool.false_ne_true, unassignedClass_gap fun x hx _ S h => hS x hx S h]
  obtain ⟨account, claims⟩ := account_gap (s := s) (i := i) (f := f)
  exact ⟨account, claims, account_desc _⟩

end

end Sys2Proof.Machine

/-! ## The frame event of a capture stream (R3, R18 to R22, R40, R41, R78, R79) -/

namespace Sys2Proof.Machine

section
variable {s u t : State} {i : StreamNo} {W : Nat} {rx : RxFrame} {f : FrameNo} {dt : FrameTime}

/-- From `s`, where the frame event begins, to `t`, where it ends, the capture stream `i` sees what its own item does to it, as the
item finds it in `u`. -/
structure Delivered (s u t : State) (i : StreamNo) (W : Nat) (rx : RxFrame) (f : FrameNo) (dt : FrameTime) : Prop where
  context : u.stream i = s.stream i
  own : ∀ h ∈ (s.stream i).queue, u.desc h = s.desc h
  held : u.heldCount i = s.heldCount i
  gathering : ∀ l, (u.lane l).gathering = (s.lane l).gathering
  stream : t.stream i = (u.captureEvent i W rx f dt).stream i
  descs : ∀ h ∈ (s.stream i).queue, t.desc h = (u.captureEvent i W rx f dt).desc h
  claims : (u.captureEvent i W rx f dt).claims ⊆ t.claims

theorem EventAround.delivered {dom : Domain} (a : EventAround i dom rx s u t) (hs : s.PlacesOk) (hd : (s.stream i).direction = .capture)
    (hv : dom.delivers = true) : Delivered s u t i dom.width rx (dom.counter - 1) dom.atEvent := by
  have item : State.itemEvent dom rx u (.stream i) = u.captureEvent i dom.width rx (dom.counter - 1) dom.atEvent := by
    simp only [State.itemEvent, a.before.stream, hd]
    exact if_pos hv
  obtain ⟨before, stream, descs, claims⟩ := a
  rw [item] at stream claims
  refine ⟨before.stream, fun h hh => before.own hs hh, ?_, before.gathering, stream, fun h hh => (descs h hh).trans (by rw [item]), claims⟩
  rw [State.heldCount, before.held, before.stream, State.heldCount]

/-- The samples of lanes that gathered the frame (R113). -/
theorem capturedSamples_gathered {st : Stream} (h : ∀ e ∈ st.map, (s.lane e.1).gathering = true) :
    s.capturedSamples W rx st = st.map.map fun e => unpackSlot W st.width (rxSlot rx W e.1 e.2.val) :=
  List.map_congr_left fun e he => congrArg (unpackSlot W st.width) (if_pos (h e he))

theorem eligible_iff {d : Descriptor} : d.eligible = true ↔ d.state = .waiting ∨ d.state = .active := by
  simp [Descriptor.eligible]

end

/-- Settles O46. -/
theorem deliveredFrameAssigned : Obligations.DeliveredFrameAssigned := by
  intro s c d rx i hplaces hevent hdel hdir hdom st F W gathered eligible heldFrame passedOver gapEnded inGap
  by_cases ho : st.isOpen = true
  case neg =>
    obtain ⟨g, ran⟩ := takesFrameEvent_runs hevent
    have closed : st.state = .closed := by simpa [Stream.isOpen] using ho
    refine ⟨_, ran, fun e => ?_, fun e => ?_⟩
    · rw [closed] at e
      cases e
    · rw [closed] at e
      rcases e with e | e <;> cases e
  obtain ⟨t, u, g, ran, around⟩ := takesFrameEvent_around hevent hplaces ho hdom
  obtain ⟨context, own, held, gathering, stream, descs, claims⟩ := around.delivered hplaces hdir hdel
  have nodup := hplaces.once i
  have capture : (u.stream i).direction = .capture := by rw [context]; exact hdir
  have ht : ({ s.domain d with lastGood := g } : Domain).atEvent.captureD = F := rfl
  generalize ({ s.domain d with lastGood := g } : Domain).atEvent = dt at stream descs claims ht
  change t.stream i = (u.captureEvent i W rx F dt).stream i at stream
  change ∀ h ∈ st.queue, t.desc h = (u.captureEvent i W rx F dt).desc h at descs
  change (u.captureEvent i W rx F dt).claims ⊆ t.claims at claims
  refine ⟨t, ran, fun hidle => ?_, fun hst => ?_⟩
  · have rests : u.captureEvent i W rx F dt = u := if_neg (by rw [context]; simp [Stream.moving, show (s.stream i).state = .idle from hidle])
    rw [rests] at stream descs
    exact ⟨stream.trans context, fun h hh => (descs h hh).trans (own h hh)⟩
  have moving : (u.stream i).moving = true := by
    rw [context]
    rcases hst with e | e <;> simp [Stream.moving, show (s.stream i).state = _ from e]
  have samples : gathered → u.capturedSamples W rx (u.stream i) = st.map.map fun e => unpackSlot W st.width (rxSlot rx W e.1 e.2.val) :=
    fun hg => by
      rw [context]
      exact capturedSamples_gathered fun e he => (gathering e.1).trans (hg e he)
  refine ⟨fun h q S hq he hS hg hheld hr hlt hn hshort => ?_, fun h q S hq he hS hr hlt hn hle => ?_,
    fun h q S hq hw hS ha hf h1 h2 => ?_, fun hfull => ?_⟩
  · have mem : h ∈ st.queue := by rw [hq]; exact List.mem_cons_self
    have same := own h mem
    have out : h ∉ q := (List.nodup_cons.mp (hq ▸ nodup)).1
    generalize eqn : (F - (S + BitVec.ofNat 32 (s.desc h).assigned)).toNat = n at hn hshort ⊢
    have taken := captureEvent_takes (n := n) (W := W) (rx := rx) capture moving (by rw [context]; exact hq) out
      (by rw [same]; exact eligible_iff.mpr he) (by rw [same]; exact hS) (by rw [same]; exact hr) (by rw [same]; exact hlt) (by rw [same]; exact eqn) hn (by rw [same]; exact hshort) ht
    rw [samples hg] at taken
    obtain ⟨desc, gap, late, grown, short, next⟩ := taken
    have backlog : u.takenBacklog i h S n F (st.map.map fun e => unpackSlot W st.width (rxSlot rx W e.1 e.2.val)) =
        st.backlog ++ passedOver h S (s.desc h).assigned n ++ [heldFrame h ((s.desc h).assigned + n)] := by
      rw [State.takenBacklog, same, context]
      rfl
    rw [same] at desc short next
    rw [context] at gap
    rw [context, held, backlog] at grown
    have whole := stream.trans grown
    generalize st.backlog ++ passedOver h S (s.desc h).assigned n ++ [heldFrame h ((s.desc h).assigned + n)] = joined at whole ⊢
    have all : late = [] → (t.stream i).backlog.length = joined.length := fun e => by
      rw [whole, e, List.append_nil]
      dsimp only
      split
      · exact convertOldestHeld_length joined
      · rfl
    refine ⟨(descs h mem).trans desc, by rw [whole]; rfl, fun e => claims (gap e), fun hfew => ?_, fun front e back hmany hj hfront heldE => ?_,
      fun hshort' => ?_, fun h' q' hfull hq' hready hstart hf => ?_⟩
    · rw [whole]
      exact ⟨late, by rw [if_neg (Nat.not_le.mpr hfew)]⟩
    · rw [whole, if_pos (Nat.le_of_eq hmany.symm), hj, convertOldestHeld_at hfront heldE]
      exact ⟨late, rfl⟩
    · obtain ⟨none, others⟩ := short hshort'
      refine ⟨all none, fun k hk => ?_⟩
      have queued : k ∈ st.queue := by rw [hq]; exact List.mem_cons_of_mem h hk
      exact (descs k queued).trans ((others k fun e => out (e ▸ hk)).trans (own k queued))
    · have queued : h' ∈ st.queue := by rw [hq, hq']; simp
      rw [← own h' queued] at hready hstart hf
      obtain ⟨none, starts⟩ := next h' q' hfull hq' hready hstart hf
      rw [own h' queued] at starts
      exact ⟨(descs h' queued).trans starts, all none⟩
  · have mem : h ∈ st.queue := by rw [hq]; exact List.mem_cons_self
    have same := own h mem
    have out : h ∉ q := (List.nodup_cons.mp (hq ▸ nodup)).1
    generalize eqn : (F - (S + BitVec.ofNat 32 (s.desc h).assigned)).toNat = n at hn hle
    obtain ⟨desc, alone, next⟩ := captureEvent_passes (n := n) (W := W) (rx := rx) capture moving (by rw [context]; exact hq) out
      (by rw [same]; exact eligible_iff.mpr he) (by rw [same]; exact hS) (by rw [same]; exact hr) (by rw [same]; exact hlt)
      (by rw [same]; exact eqn) (by rw [same]; exact hn) (by rw [same]; exact hle) ht
    rw [same] at desc
    rw [context, same] at alone
    refine ⟨(descs h mem).trans desc, fun hq' => ?_, fun h' q' hq' hready hstart hf hg hfew => ?_⟩
    · obtain ⟨whole, gap⟩ := alone hq'
      exact ⟨stream.trans whole, fun e1 e2 => claims (gap e1 e2)⟩
    · have queued : h' ∈ st.queue := by rw [hq, hq']; simp
      rw [← own h' queued] at hready hstart hf
      obtain ⟨starts, whole⟩ := next h' q' hq' hready hstart hf (by rw [held]; exact hfew)
      rw [own h' queued] at starts
      rw [samples hg, context, same] at whole
      exact ⟨(descs h' queued).trans starts, stream.trans whole⟩
  · have mem : h ∈ st.queue := by rw [hq]; exact List.mem_cons_self
    obtain ⟨w1, w2, w3⟩ := captureEvent_waits (t := dt) (W := W) (rx := rx) moving (by rw [context]; exact hq) (by rw [own h mem]; exact hw)
      (by rw [own h mem]; exact hS) (by rw [own h mem]; exact ha) (by rw [own h mem]; exact hf) h1 h2
    rw [context] at w1 w2
    exact ⟨stream.trans w1, fun e => claims (w2 e), fun k hk => (descs k hk).trans ((w3 k).trans (own k hk))⟩
  · obtain ⟨w1, w2, w3⟩ := captureEvent_unclaimed (t := dt) (f := F) (W := W) (rx := rx) moving
      (fun x hx => by rw [context] at hx; rw [own x hx]; exact (hfull x hx).1)
      (fun x hx S hS => by
        rw [context] at hx
        rw [own x hx] at hS
        have := (hfull x hx).2 S hS
        omega)
    rw [context] at w1 w2
    exact ⟨stream.trans w1, fun e1 e2 => claims (w2 e1 e2), fun k hk => (descs k hk).trans ((w3 k).trans (own k hk))⟩

end Sys2Proof.Machine

/-! ## The holding that each page stands in (R53) -/

namespace Sys2Proof.Machine

/-- A descriptor is in its stream's queue while it is live; one that is FREE has the blank record, and one that is RETIRED
has given up every page (R26, R44). -/
theorem State.PoolsOk.heldPages_of_not_queued {s : State} {h : Handle} (hs : s.PoolsOk) (hq : ∀ i, h ∉ (s.stream i).queue) :
    (s.desc h).heldPages = [] := by
  have notLive : (s.desc h).state.live ≠ true := fun live => hq (s.desc h).stream ((hs.places.queued h _).mpr ⟨live, rfl⟩)
  cases hd : (s.desc h).state with
  | free => rw [(hs.descs h).blank hd]; rfl
  | retired => exact retired_pages (poolsOk_iff_allOk.mp hs).2.core hd
  | loading => exact absurd (congrArg DescState.live hd) notLive
  | ready => exact absurd (congrArg DescState.live hd) notLive
  | waiting => exact absurd (congrArg DescState.live hd) notLive
  | active => exact absurd (congrArg DescState.live hd) notLive

/-- Settles O58: the pools' invariant, kept by the step, holds the pages in one holding each, and leaves no page with a
descriptor that is FREE or RETIRED. -/
theorem pagesStandInOneHolding : Obligations.PagesStandInOneHolding := by
  intro s t hs h
  have kept := stepKeepsPools s t hs h
  exact ⟨kept.pages, fun _ hq => kept.heldPages_of_not_queued hq⟩

end Sys2Proof.Machine

/-! ## The buffer memory: which steps write it (R31, R42, R57) -/

namespace Sys2Proof.Machine

/-! ### Operations that leave the bytes alone -/

section
variable (s : State) (i : StreamNo) (d : DomainId) (rx : RxFrame)

@[simp] theorem reply_memory (r : Request) (st : Status) (b : ReplyBody) : (s.reply r st b).mem = s.mem := rfl

@[simp] theorem refuse_memory (k : Kind) (r : Request) (st : Status) : (s.refuse k r st).mem = s.mem := rfl

@[simp] theorem settle_memory : (s.settle i).mem = s.mem := (settleAt_frame s i _).mem

@[simp] theorem drainIfEmpty_memory : (s.drainIfEmpty i).mem = s.mem := (QueueFrame.drainIfEmpty i s).mem

/-- An item of a frame event, a stream's or a lane's, writes no page byte. -/
theorem itemEvent_memory (dom : Domain) (x : Item) : (State.itemEvent dom rx s x).mem = s.mem := by
  cases x with
  | stream j => exact (itemEvent_stream_frame dom rx s j).mem
  | lane l =>
    obtain ⟨-, -, -, -, -, -, mem, -⟩ := laneEvent_frame s l dom.width rx (dom.counter - 1)
    exact mem

theorem foldl_itemEvent_memory (dom : Domain) (xs : List Item) : (xs.foldl (State.itemEvent dom rx) s).mem = s.mem := by
  induction xs generalizing s with
  | nil => rfl
  | cons x xs ih => exact (ih _).trans (itemEvent_memory s rx dom x)

@[simp] theorem sent_memory : (s.sent d).mem = s.mem := by
  unfold State.sent
  split <;> rfl

@[simp] theorem advanced_memory : (s.advanced d).mem = s.mem := State.modDomain_mem s d _

/-- A frame event works on samples that moves have brought to the rings and backlogs (R97). -/
@[simp] theorem frameEvent_memory : (s.frameEvent d rx).mem = s.mem := by
  rw [frameEvent_eq, advanced_memory, foldl_itemEvent_memory, sent_memory]

@[simp] theorem lockTransition_memory : (s.lockTransition d).mem = s.mem := by
  simp [State.lockTransition, State.breakAssemblies]

@[simp] theorem setDomain_memory (c : DomainConfig) : (s.setDomain d c).mem = s.mem := by
  unfold State.setDomain
  dsimp only
  split <;> simp [State.breakAssemblies, State.stopLanes]

@[simp] theorem loseLock_memory (b : Bool) : (s.loseLock d b).mem = s.mem := by
  simp [State.loseLock, State.stopLanes]

@[simp] theorem gainLock_memory : (s.gainLock d rx).mem = s.mem := by
  simp [State.gainLock]

@[simp] theorem goodFrameClosed_memory (duration : Nat) : (s.goodFrameClosed d duration rx).mem = s.mem := by
  unfold State.goodFrameClosed
  dsimp only
  split
  · simp
  · rfl
  all_goals split <;> simp

@[simp] theorem badFrameClosed_memory : (s.badFrameClosed d).mem = s.mem := by
  unfold State.badFrameClosed
  split <;> simp

@[simp] theorem startStream_memory : (s.startStream i).mem = s.mem := settle_memory _ i

@[simp] theorem drain_memory : (s.drain i).mem = s.mem := by
  unfold State.drain
  split <;> simp

@[simp] theorem abort_memory : (s.abort i).mem = s.mem :=
  (retireAll_frame i Descriptor.abortOutcome _ (s.beforeAbort i) (by rw [beforeAbort_stream])).mem

@[simp] theorem closeStream_memory : (s.closeStream i).mem = s.mem :=
  (retireAll_frame i (fun _ => .discarded) _ (s.voidStream i) rfl).mem

@[simp] theorem submit_memory (p : List Byte) (h : Handle) (a : Start) : (s.submit p i h a).mem = s.mem := settle_memory _ i

@[simp] theorem grantTo_memory : (s.grantTo i).mem = s.mem := by
  unfold State.grantTo State.grantPlay State.grantCapture
  split <;> split <;> rfl

/-- A play move reads the pages and puts the samples in the ring (R72). -/
@[simp] theorem completePlay_memory (m : Move) : (s.completePlay m).mem = s.mem := by
  rw [completePlay_eq, settle_memory, State.placed, State.resolvePlay_eq]
  rfl

@[simp] theorem passFilled_memory (h : Handle) : (s.passFilled h).mem = s.mem := by
  unfold State.passFilled State.passPage
  split
  · split <;> rfl
  · rfl

@[simp] theorem handOn_memory (c : Claim) : (s.handOn c).mem = s.mem := by
  cases c <;> simp [State.handOn]

@[simp] theorem convert_memory (c : Claim) (rest : List Claim) : (s.convert c rest).mem = s.mem := handOn_memory _ c

@[simp] theorem acknowledge_memory (a : BitVec 8) : (s.acknowledge a).mem = s.mem := by
  unfold State.acknowledge
  split <;> rfl

@[simp] theorem dealRequest_memory (seq kind : Byte) (payload : List Byte) : (s.dealRequest seq kind payload).1.mem = s.mem := by
  rcases dealRequest_cases s seq kind payload with h | ⟨h, -⟩ <;> rw [h]
  rfl

@[simp] theorem settleInbound_memory (c : Option (BitVec 8)) (fr : Inbound) : (s.settleInbound c fr).1.mem = s.mem := by
  cases fr <;> simp [State.settleInbound]

@[simp] theorem endExchange_memory (f : OutFrame) (sdi : List Byte) : (s.endExchange f sdi).mem = s.mem := by
  simp [State.endExchange]

end

/-! ### Requests -/

/-- A request taken or refused for its length: what a relation on the bytes asks of a step, it asks of the act alone. -/
theorem takeKind_memory_rel {R : Memory → Memory → Prop} (hR : ∀ m, R m m) {s : State} {k : Kind} {sel : Request → Bool}
    {act : Request → State → State} (hact : ∀ r u, R u.mem (act r u).mem) : R s.mem (s.takeKind k sel act).mem := by
  rcases State.takeKind_cases s k sel act with h | ⟨r, rest, -, -, -, ⟨-, h⟩ | ⟨-, h⟩⟩ <;> rw [h]
  · exact hR _
  · exact hR _
  · exact hact r (s.modPort fun p => { p with inbound := rest })

theorem takeKind_memory {s : State} {k : Kind} {sel : Request → Bool} {act : Request → State → State}
    (hact : ∀ r u, (act r u).mem = u.mem) : (s.takeKind k sel act).mem = s.mem :=
  takeKind_memory_rel (R := fun m m' => m' = m) (fun _ => rfl) hact

theorem takeKind_answer_memory {α : Type} {s : State} {k : Kind} {sel : Request → Bool}
    {check : State → List Byte → Except Status α} {act : Request → State → α → State}
    (hact : ∀ r u x, (act r u x).mem = u.mem) :
    (s.takeKind k sel fun r u => u.answer k r (check u r.payload) (act r u)).mem = s.mem :=
  takeKind_memory fun r u => by
    cases check u r.payload with
    | error st => rfl
    | ok x => exact hact r u x

/-! ### The commands that write no byte -/

/-- No command but PUT and COMPLETION changes a byte of the pages, the resets included (R57). -/
theorem exec_memory_eq {c : Instr} {s t : State} (hput : c ≠ .put) (hcompletion : c ≠ .completion) (h : exec c s = .next t) :
    t.mem = s.mem := by
  cases c with
  | put => exact absurd rfl hput
  | completion => exact absurd rfl hcompletion
  | pinReset ovr csnLow => cases h; rfl
  | csnFalling => cases h; split <;> rfl
  | endOfExchange sdi =>
    cases h
    split
    · split
      · exact endExchange_memory s _ sdi
      · rfl
    · rfl
  | unknownKind =>
    cases h
    unfold State.takeHead
    split
    · rfl
    · split <;> rfl
  | identify => cases h; exact takeKind_memory fun _ _ => rfl
  | status => cases h; exact takeKind_memory fun _ _ => rfl
  | resetFull => cases h; exact takeKind_memory fun _ _ => rfl
  | resetStreams => cases h; exact takeKind_memory fun _ _ => by split <;> rfl
  | setDomain => cases h; exact takeKind_answer_memory fun _ u x => setDomain_memory u x.1 x.2
  | queryTime => cases h; exact takeKind_answer_memory (check := fun _ => checkQueryTime) fun _ _ _ => rfl
  | setLane => cases h; exact takeKind_answer_memory fun _ _ _ => rfl
  | setMarker => cases h; exact takeKind_answer_memory (check := fun _ => checkSetMarker) fun _ _ _ => rfl
  | openStream => cases h; exact takeKind_answer_memory fun _ _ _ => rfl
  | startStream => cases h; exact takeKind_answer_memory fun _ u i => startStream_memory u i
  | stopDrain => cases h; exact takeKind_answer_memory fun _ u i => drain_memory u i
  | stopAbort => cases h; exact takeKind_answer_memory fun _ u i => abort_memory u i
  | closeStream => cases h; exact takeKind_answer_memory fun _ u i => closeStream_memory u i
  | queryStream => cases h; exact takeKind_answer_memory fun _ _ _ => rfl
  | submit => cases h; exact takeKind_answer_memory fun r u x => submit_memory u x.1 r.payload x.2.1 x.2.2
  | clearOverride => cases h; exact takeKind_memory fun _ _ => by split <;> rfl
  | setArbitration => cases h; exact takeKind_answer_memory (check := fun _ => checkSetArbitration) fun _ _ _ => rfl
  | grant =>
    cases h
    split
    · rfl
    · split
      · rfl
      · exact grantTo_memory s _
  | frameClosed d bits duration rx =>
    cases h
    split
    · split
      · split
        · exact goodFrameClosed_memory s d rx duration
        · exact badFrameClosed_memory s d
      · exact State.modDomain_mem s d _
    · rfl
  | lockTimeout d elapsed =>
    cases h
    split
    · exact loseLock_memory s d false
    · rfl
  | goodRunTimeout d elapsed =>
    cases h
    split
    · exact State.modDomain_mem s d _
    · rfl
  | generatorBoundary d rx =>
    cases h
    split
    · exact frameEvent_memory s d rx
    · rfl
  | assertionEdge =>
    cases h
    split
    · rfl
    · exact State.raiseOnce_mem _ _
  | deassertionEdge =>
    cases h
    split
    · rfl
    · exact State.raiseOnce_mem _ _
  | conversion =>
    cases h
    split
    · rfl
    · split
      · exact convert_memory s _ _
      · rfl

/-! ### PUT and COMPLETION -/

/-- The bytes change from `m` to `m'` in a way that keeps the canonical form. -/
def Memory.KeepsForm (m m' : Memory) : Prop := m.wf = true → m'.wf = true

theorem Memory.KeepsForm.of_eq {m m' : Memory} (h : m' = m) : m.KeepsForm m' := fun hm => h ▸ hm

/-- PUT stores its data at offsets of one descriptor (R31). -/
theorem put_keepsForm (s : State) (i : StreamNo) (h : Handle) (bs : List Byte) : s.mem.KeepsForm (s.put i h bs).mem := fun hm => by
  rw [State.put, settle_memory]
  exact wf_writeOffsets _ _ bs hm

/-- A capture move stores the frame it carries at offsets of one descriptor (R42). -/
theorem completeCapture_keepsForm (s : State) (m : Move) (k : EntryKind) : s.mem.KeepsForm (s.completeCapture m k).mem := fun hm => by
  rw [completeCapture_eq, settle_memory, passFilled_memory]
  exact wf_writeOffsets _ _ _ hm

theorem execPut_keepsForm {s t : State} (h : execPut s = .next t) : s.mem.KeepsForm t.mem := by
  cases h
  refine takeKind_memory_rel (fun _ => .of_eq rfl) fun r u => ?_
  cases u.checkPut r.payload with
  | error st => exact .of_eq rfl
  | ok x => exact put_keepsForm u x.1 x.2 (putData r.payload)

theorem execCompletion_keepsForm {s t : State} (h : execCompletion s = .next t) : s.mem.KeepsForm t.mem := by
  cases h
  split
  · exact .of_eq rfl
  · next m _ =>
    dsimp only
    split
    · exact .of_eq rfl
    · split
      · exact .of_eq (completePlay_memory _ m)
      · exact completeCapture_keepsForm { s with inFlight := none } m _

theorem exec_keepsForm {c : Instr} {s t : State} (h : exec c s = .next t) : s.mem.KeepsForm t.mem := by
  by_cases hput : c = .put
  · subst hput
    exact execPut_keepsForm h
  · by_cases hcompletion : c = .completion
    · subst hcompletion
      exact execCompletion_keepsForm h
    · exact .of_eq (exec_memory_eq hput hcompletion h)

/-- Settles O52: PUT and the completion of a capture move alone write bytes, and each writes them one by one with
`Memory.write`, which keeps the canonical form. -/
theorem stepKeepsMemoryForm : Obligations.StepKeepsMemoryForm := by
  intro s t hs h
  unfold step at h
  split at h
  · cases h; exact hs
  · exact exec_keepsForm h hs

end Sys2Proof.Machine

/-! ## The arbiter and the Override Unit: which commands change them (R83, R84, R125, R127, R129, R132) -/

namespace Sys2Proof.Machine

/-! ### Operations that leave both alone -/

/-- The arbiter's mode and rotation list (Table 4-2), and the Override Unit. -/
def State.control (s : State) : ArbMode × List StreamNo × OverrideUnit := (s.mode, s.rotation, s.ovr)

theorem control_eq_iff {s t : State} :
    t.control = s.control ↔ t.mode = s.mode ∧ t.rotation = s.rotation ∧ t.ovr = s.ovr := by
  simp [State.control]

theorem QueueFrame.control {i : StreamNo} {s t : State} (a : QueueFrame i s t) : t.control = s.control :=
  control_eq_iff.mpr ⟨a.mode, a.rotation, a.ovr⟩

theorem EventFrame.control {i : StreamNo} {s t : State} (a : EventFrame i s t) : t.control = s.control :=
  control_eq_iff.mpr ⟨a.mode, a.rotation, a.ovr⟩

section
variable (s : State) (i : StreamNo) (d : DomainId) (rx : RxFrame)

@[simp] theorem reply_control (r : Request) (st : Status) (b : ReplyBody) : (s.reply r st b).control = s.control := rfl

@[simp] theorem modDomain_control (f : Domain → Domain) : (s.modDomain d f).control = s.control := by
  cases d <;> rfl

@[simp] theorem mapLanesOf_control (f : LaneNo → Lane → Lane) : (s.mapLanesOf d f).control = s.control := rfl

@[simp] theorem raiseOnce_control (c : Claim) : (s.raiseOnce c).control = s.control := by
  simp [control_eq_iff]

@[simp] theorem settle_control : (s.settle i).control = s.control := (settle_frame s i).control

/-- An item of a frame event, a stream's or a lane's, moves neither the arbiter nor the override line. -/
theorem itemEvent_control (dom : Domain) (x : Item) : (State.itemEvent dom rx s x).control = s.control := by
  cases x with
  | stream j => exact (itemEvent_stream_frame dom rx s j).control
  | lane l =>
    obtain ⟨-, -, -, -, -, -, -, -, mode, rotation, -, -, ovr, -⟩ := laneEvent_frame s l dom.width rx (dom.counter - 1)
    exact control_eq_iff.mpr ⟨mode, rotation, ovr⟩

theorem foldl_itemEvent_control (dom : Domain) (xs : List Item) :
    (xs.foldl (State.itemEvent dom rx) s).control = s.control := by
  induction xs generalizing s with
  | nil => rfl
  | cons x xs ih => exact (ih _).trans (itemEvent_control s rx dom x)

@[simp] theorem sent_control : (s.sent d).control = s.control := by
  unfold State.sent
  split <;> rfl

@[simp] theorem advanced_control : (s.advanced d).control = s.control := modDomain_control s d _

@[simp] theorem frameEvent_control : (s.frameEvent d rx).control = s.control := by
  rw [frameEvent_eq, advanced_control, foldl_itemEvent_control, sent_control]

@[simp] theorem lockTransition_control : (s.lockTransition d).control = s.control := by
  simp [State.lockTransition, State.breakAssemblies]

@[simp] theorem setDomain_control (c : DomainConfig) : (s.setDomain d c).control = s.control := by
  unfold State.setDomain
  dsimp only
  split <;> simp [State.breakAssemblies, State.stopLanes]

@[simp] theorem loseLock_control (b : Bool) : (s.loseLock d b).control = s.control := by
  simp [State.loseLock, State.stopLanes]

@[simp] theorem gainLock_control : (s.gainLock d rx).control = s.control := by
  simp [State.gainLock]

@[simp] theorem goodFrameClosed_control (duration : Nat) : (s.goodFrameClosed d duration rx).control = s.control := by
  unfold State.goodFrameClosed
  dsimp only
  split
  · simp
  · rfl
  all_goals split <;> simp

@[simp] theorem badFrameClosed_control : (s.badFrameClosed d).control = s.control := by
  unfold State.badFrameClosed
  split <;> simp

@[simp] theorem startStream_control : (s.startStream i).control = s.control := settle_control _ i

@[simp] theorem drain_control : (s.drain i).control = s.control := by
  unfold State.drain
  split
  · exact (QueueFrame.drainIfEmpty i _).control
  all_goals rfl

@[simp] theorem abort_control : (s.abort i).control = s.control :=
  (retireAll_frame i Descriptor.abortOutcome _ (s.beforeAbort i) (by rw [beforeAbort_stream])).control

@[simp] theorem closeStream_control : (s.closeStream i).control = s.control :=
  (retireAll_frame i (fun _ => .discarded) _ (s.voidStream i) rfl).control

@[simp] theorem submit_control (p : List Byte) (h : Handle) (a : Start) : (s.submit p i h a).control = s.control :=
  settle_control _ i

@[simp] theorem put_control (h : Handle) (bs : List Byte) : (s.put i h bs).control = s.control := settle_control _ i

@[simp] theorem completePlay_control (m : Move) : (s.completePlay m).control = s.control := by
  rw [completePlay_eq, settle_control, State.placed, State.resolvePlay_eq]
  rfl

@[simp] theorem passFilled_control (h : Handle) : (s.passFilled h).control = s.control := by
  unfold State.passFilled State.passPage
  split
  · split <;> rfl
  · rfl

@[simp] theorem completeCapture_control (m : Move) (k : EntryKind) : (s.completeCapture m k).control = s.control := by
  rw [completeCapture_eq, settle_control, passFilled_control]
  rfl

@[simp] theorem acknowledge_control (a : BitVec 8) : (s.acknowledge a).control = s.control := by
  unfold State.acknowledge
  split <;> rfl

@[simp] theorem dealRequest_control (seq kind : Byte) (payload : List Byte) :
    (s.dealRequest seq kind payload).1.control = s.control := by
  rcases dealRequest_cases s seq kind payload with h | ⟨h, -⟩ <;> rw [h]
  rfl

@[simp] theorem settleInbound_control (c : Option (BitVec 8)) (fr : Inbound) :
    (s.settleInbound c fr).1.control = s.control := by
  cases fr with
  | noFrame => rfl
  | bad => rfl
  | good seq ack kind payload => exact (dealRequest_control _ _ _ _).trans (acknowledge_control s ack)

@[simp] theorem endExchange_control (f : OutFrame) (sdi : List Byte) : (s.endExchange f sdi).control = s.control :=
  settleInbound_control _ (carriedBy f sdi) (judge sdi)

end

/-! ### What is kept -/

/-- The rotation list is whole and the override record true. -/
structure State.ControlOk (s : State) : Prop where
  rotation : s.RotationOk
  override : s.OverrideOk

section
variable {s t : State}

theorem State.RotationOk.congr (hs : s.RotationOk) (hm : t.mode = s.mode) (hr : t.rotation = s.rotation) : t.RotationOk := by
  rw [State.RotationOk, hm, hr]
  exact hs

theorem State.OverrideOk.congr (hs : s.OverrideOk) (ho : t.ovr = s.ovr) : t.OverrideOk :=
  ⟨ho ▸ hs.level, ho ▸ hs.latch, ho ▸ hs.asserted, ho ▸ hs.edges⟩

theorem State.ControlOk.congr (hs : s.ControlOk) (h : t.control = s.control) : t.ControlOk := by
  obtain ⟨mode, rotation, ovr⟩ := control_eq_iff.mp h
  exact ⟨hs.rotation.congr mode rotation, hs.override.congr ovr⟩

theorem rotationOk_of_ascending (h : s.rotation = List.finRange 12) : s.RotationOk := ⟨.of_eq h, fun _ => h⟩

/-- R83: in FIXED mode a grant leaves the list, in ROTATING mode the order is free. -/
theorem rotationOk_of_rotated {i : StreamNo} (hs : s.RotationOk) (hi : i ∈ s.rotation) (hm : t.mode = s.mode)
    (hr : t.rotation = rotated s.mode i s.rotation) : t.RotationOk := by
  refine ⟨hr ▸ (rotated_perm s.mode hi).trans hs.1, fun fixed => ?_⟩
  rw [hm] at fixed
  rw [hr, fixed]
  exact hs.2 fixed

theorem bump_le (n : Nat) : bump n ≤ 65535 := by
  unfold bump Config.countLimit
  split <;> omega

/-! ### The commands that move them -/

/-- R127: an edge is recorded with its level and the latch; R125: an assertion edge sets the latch. -/
theorem overrideOk_of_edge {o : OverrideUnit} {lv : LineLevel} {latch : Bool} (ht : t.ovr = o.edge lv latch)
    (ha : lv = .asserted → latch = true) : t.OverrideOk := by
  refine ⟨?_, ?_, ?_, ?_⟩ <;> rw [ht]
  · rfl
  · rfl
  · exact ha
  · exact bump_le o.edges

/-- R132: a line that is asserted as the reset ends counts as an assertion edge taken at once. -/
theorem overrideOk_of_reset {lv : LineLevel} (ht : t.ovr = OverrideUnit.afterReset lv) : t.OverrideOk := by
  constructor <;> (rw [ht]; cases lv <;> simp [OverrideUnit.afterReset])

theorem fullReset_controlOk (s : State) (cause : ResetCause) (lv : LineLevel) (csnLow : Bool) :
    (s.fullReset cause lv csnLow).ControlOk :=
  ⟨rotationOk_of_ascending rfl, overrideOk_of_reset rfl⟩

/-- A streams reset puts the list in order and keeps the mode and the Override Unit (R86, R133). -/
theorem streamsReset_controlOk (hs : s.ControlOk) : s.streamsReset.ControlOk :=
  ⟨rotationOk_of_ascending rfl, hs.override.congr rfl⟩

/-- R129: the line is deasserted when the latch is cleared. -/
theorem clearLatch_controlOk (hs : s.ControlOk) (hl : s.ovr.level ≠ .asserted) :
    ({ s with ovr := { s.ovr with latch := false, recLatch := false } } : State).ControlOk :=
  ⟨hs.rotation.congr rfl rfl, hs.override.level, rfl, fun e => absurd e hl, hs.override.edges⟩

theorem grantTo_control (s : State) (i : StreamNo) : (s.grantTo i).mode = s.mode ∧ (s.grantTo i).ovr = s.ovr ∧
    ((s.grantTo i).rotation = s.rotation ∨ (s.grantTo i).rotation = rotated s.mode i s.rotation) := by
  unfold State.grantTo State.grantPlay State.grantCapture
  split <;> split
  · exact ⟨rfl, rfl, .inl rfl⟩
  · exact ⟨rfl, rfl, .inr rfl⟩
  · exact ⟨rfl, rfl, .inl rfl⟩
  · exact ⟨rfl, rfl, .inr rfl⟩

theorem grantTo_controlOk {i : StreamNo} (hs : s.ControlOk) (hi : i ∈ s.rotation) : (s.grantTo i).ControlOk := by
  obtain ⟨mode, ovr, rotation | rotation⟩ := grantTo_control s i
  · exact ⟨hs.rotation.congr mode rotation, hs.override.congr ovr⟩
  · exact ⟨rotationOk_of_rotated hs.rotation hi mode rotation, hs.override.congr ovr⟩

/-- R142: the OVERRIDE EVENT claim hands on its record with its edges counted from 0 again. -/
theorem convert_controlOk (hs : s.ControlOk) (c : Claim) (rest : List Claim) : (s.convert c rest).ControlOk := by
  cases c with
  | overrideEvent =>
    exact ⟨hs.rotation.congr rfl rfl, hs.override.level, hs.override.latch, hs.override.asserted, Nat.zero_le _⟩
  | domainEvent d => exact hs.congr (modDomain_control { s with claims := rest } d _)
  | done h => exact hs.congr rfl
  | data x => exact hs.congr rfl
  | streamEvent i => exact hs.congr rfl
  | streamDetached i g r => exact hs.congr rfl
  | marker l => exact hs.congr rfl

/-! ### Requests -/

theorem takeKind_controlOk {k : Kind} {sel : Request → Bool} {act : Request → State → State} (hs : s.ControlOk)
    (hact : ∀ r u, u.ControlOk → (act r u).ControlOk) : (s.takeKind k sel act).ControlOk := by
  rcases State.takeKind_cases s k sel act with h | ⟨r, rest, -, -, -, ⟨-, h⟩ | ⟨-, h⟩⟩ <;> rw [h]
  · exact hs
  · exact hs.congr rfl
  · exact hact r _ (hs.congr rfl)

/-- A request whose act, once its check has passed, leaves both alone. -/
theorem takeKind_answer_controlOk {α : Type} {k : Kind} {sel : Request → Bool} {check : State → List Byte → Except Status α}
    {act : Request → State → α → State} (hs : s.ControlOk) (hact : ∀ r u x, (act r u x).control = u.control) :
    (s.takeKind k sel fun r u => u.answer k r (check u r.payload) (act r u)).ControlOk :=
  takeKind_controlOk hs fun r u hu => by
    cases check u r.payload with
    | error st => exact hu.congr rfl
    | ok x => exact hu.congr (hact r u x)

/-! ### The commands, one by one -/

theorem exec_controlOk {c : Instr} (hs : s.ControlOk) (h : exec c s = .next t) : t.ControlOk := by
  cases c with
  | pinReset ovr csnLow => cases h; exact fullReset_controlOk s _ _ _
  | csnFalling => cases h; split <;> exact hs.congr rfl
  | endOfExchange sdi =>
    cases h
    split
    · split
      · exact hs.congr (endExchange_control s _ sdi)
      · exact hs.congr rfl
    · exact hs
  | unknownKind =>
    cases h
    unfold State.takeHead
    split
    · exact hs
    · split <;> exact hs.congr rfl
  | identify => cases h; exact takeKind_controlOk hs fun _ _ hu => hu.congr rfl
  | status => cases h; exact takeKind_controlOk hs fun _ _ hu => hu.congr rfl
  | resetFull => cases h; exact takeKind_controlOk hs fun _ u _ => fullReset_controlOk u _ _ _
  | resetStreams =>
    cases h
    refine takeKind_controlOk hs fun _ u hu => ?_
    split
    · exact (streamsReset_controlOk hu).congr rfl
    · exact hu.congr rfl
  | setDomain => cases h; exact takeKind_answer_controlOk hs fun _ u x => setDomain_control u x.1 x.2
  | queryTime => cases h; exact takeKind_answer_controlOk (check := fun _ => checkQueryTime) hs fun _ _ _ => rfl
  | setLane => cases h; exact takeKind_answer_controlOk hs fun _ _ _ => rfl
  | setMarker => cases h; exact takeKind_answer_controlOk (check := fun _ => checkSetMarker) hs fun _ _ _ => rfl
  | openStream => cases h; exact takeKind_answer_controlOk hs fun _ _ _ => rfl
  | startStream => cases h; exact takeKind_answer_controlOk hs fun _ u i => startStream_control u i
  | stopDrain => cases h; exact takeKind_answer_controlOk hs fun _ u i => drain_control u i
  | stopAbort => cases h; exact takeKind_answer_controlOk hs fun _ u i => abort_control u i
  | closeStream => cases h; exact takeKind_answer_controlOk hs fun _ u i => closeStream_control u i
  | queryStream => cases h; exact takeKind_answer_controlOk hs fun _ _ _ => rfl
  | submit => cases h; exact takeKind_answer_controlOk hs fun r u x => submit_control u x.1 r.payload x.2.1 x.2.2
  | put => cases h; exact takeKind_answer_controlOk hs fun r u x => put_control u x.1 x.2 (putData r.payload)
  | clearOverride =>
    cases h
    refine takeKind_controlOk hs fun _ u hu => ?_
    split
    · exact hu.congr rfl
    · next released => exact (clearLatch_controlOk hu released).congr rfl
  | setArbitration =>
    cases h
    refine takeKind_controlOk hs fun r u hu => ?_
    cases checkSetArbitration r.payload with
    | error st => exact hu.congr rfl
    | ok m => exact ⟨rotationOk_of_ascending rfl, hu.override.congr rfl⟩
  | grant =>
    cases h
    split
    · exact hs
    · split
      · exact hs
      · next i first => exact grantTo_controlOk hs (State.arbitrate_requests first).2
  | completion =>
    cases h
    split
    · exact hs
    · next m _ =>
      dsimp only
      split
      · exact hs.congr rfl
      · split
        · exact hs.congr (completePlay_control { s with inFlight := none } m)
        · exact hs.congr (completeCapture_control { s with inFlight := none } m _)
  | frameClosed d bits duration rx =>
    cases h
    split
    · split
      · split
        · exact hs.congr (goodFrameClosed_control s d rx duration)
        · exact hs.congr (badFrameClosed_control s d)
      · exact hs.congr (modDomain_control s d _)
    · exact hs
  | lockTimeout d elapsed =>
    cases h
    split
    · exact hs.congr (loseLock_control s d false)
    · exact hs
  | goodRunTimeout d elapsed =>
    cases h
    split
    · exact hs.congr (modDomain_control s d _)
    · exact hs
  | generatorBoundary d rx =>
    cases h
    split
    · exact hs.congr (frameEvent_control s d rx)
    · exact hs
  | assertionEdge =>
    cases h
    split
    · exact hs
    · exact ⟨hs.rotation.congr (State.raiseOnce_mode _ _) (State.raiseOnce_rotation _ _),
        overrideOk_of_edge (State.raiseOnce_ovr _ _) fun _ => rfl⟩
  | deassertionEdge =>
    cases h
    split
    · exact hs
    · exact ⟨hs.rotation.congr (State.raiseOnce_mode _ _) (State.raiseOnce_rotation _ _),
        overrideOk_of_edge (State.raiseOnce_ovr _ _) fun e => by cases e⟩
  | conversion =>
    cases h
    split
    · exact hs
    · split
      · exact convert_controlOk hs _ _
      · exact hs

end

/-- Settles O54: a grant rotates the list, SET ARBITRATION and the resets put it in order; edges, CLEAR OVERRIDE, the resets
and the conversion of its claim move the Override Unit with its record; no other command touches either. -/
theorem stepKeepsArbiterAndOverride : Obligations.StepKeepsArbiterAndOverride := by
  intro s t hr ho h
  have hs : s.ControlOk := ⟨hr, ho⟩
  have kept : t.ControlOk := by
    unfold step at h
    split at h
    · cases h; exact hs
    · refine exec_controlOk (hs.congr ?_) h
      rfl
  exact ⟨kept.rotation, kept.override⟩

end Sys2Proof.Machine

/-! ## When a stream requests a move, and which one is granted (R68, R71, R74, R77, R82, R83) -/

namespace Sys2Proof.Machine

/-! ### Requests (R71, R77) -/

theorem inWindow_iff {n f : FrameNo} : inWindow n f = true ↔ (f - n).toNat ≤ 3 := by
  rw [inWindow, decide_eq_true_iff]
  exact Nat.lt_succ_iff

section
variable {s : State} {i : StreamNo}

theorem movingFor_eq_false_iff : s.movingFor i = false ↔ ∀ m ∈ s.inFlight, m.stream ≠ i := by
  unfold State.movingFor
  cases s.inFlight <;> simp

theorem moving_iff {st : Stream} : st.moving = true ↔ st.state = .running ∨ st.state = .stopping := by
  simp [Stream.moving]

/-- The head's first unresolved position, while it is eligible and has one (R71). -/
theorem headFrame_eq_some_iff {h : Handle} {f : FrameNo} : s.headFrame i = some (h, f) ↔ ∃ q S, (s.stream i).queue = h :: q ∧
    (s.desc h).eligible = true ∧ (s.desc h).resolved < (s.desc h).frames ∧ (s.desc h).span = some S ∧
      f = frameOf S (s.desc h).resolved := by
  constructor
  · intro e
    obtain ⟨⟨q, hq⟩, hf⟩ := headFrame_some e
    obtain ⟨eligible, unresolved, S, hS, hf⟩ := nextFrame_some hf
    exact ⟨q, S, hq, eligible, unresolved, hS, hf⟩
  · rintro ⟨q, S, hq, eligible, unresolved, hS, rfl⟩
    rw [headFrame_eq, hq, List.head?_cons, Option.bind_some, Descriptor.nextFrame, if_pos ⟨eligible, unresolved⟩, hS]
    rfl

theorem requests_play (hd : (s.stream i).direction = .play) : s.requests i = s.playRequests i := by
  rw [State.requests, hd]

theorem requests_capture (hd : (s.stream i).direction = .capture) : s.requests i = s.captureRequests i := by
  rw [State.requests, hd]

end

/-- Settles O37. -/
theorem moveRequestConditions : Obligations.MoveRequestConditions := by
  intro s i
  refine ⟨fun hd => ?_, fun hd => ?_⟩
  · rw [requests_play hd, playRequests_iff, moving_iff, movingFor_eq_false_iff]
    refine and_congr_right fun _ => and_congr_right fun _ => ⟨?_, ?_⟩
    · rintro ⟨h, f, head, window⟩
      obtain ⟨q, S, hq, eligible, unresolved, hS, rfl⟩ := headFrame_eq_some_iff.mp head
      exact ⟨h, q, S, hq, eligible_iff.mp eligible, unresolved, hS, inWindow_iff.mp window⟩
    · rintro ⟨h, q, S, hq, state, unresolved, hS, near⟩
      exact ⟨h, _, headFrame_eq_some_iff.mpr ⟨q, S, hq, eligible_iff.mpr state, unresolved, hS, rfl⟩, inWindow_iff.mpr near⟩
  · rw [requests_capture hd, State.captureRequests, Bool.and_eq_true, Bool.not_eq_true', Bool.not_eq_true', movingFor_eq_false_iff,
      List.isEmpty_eq_false_iff]

/-! ### The stream that ranks first (R82) -/

/-- The search of a list finds the member that stands before every other that satisfies the test. -/
theorem find?_eq_of_idxOf_lt {α : Type} [DecidableEq α] {p : α → Bool} {l : List α} {a : α} (ha : a ∈ l) (hp : p a = true)
    (first : ∀ b ∈ l, b ≠ a → p b = true → l.idxOf a < l.idxOf b) : l.find? p = some a := by
  induction l with
  | nil => cases ha
  | cons x l ih =>
    by_cases hx : x = a
    · rw [hx, List.find?_cons_of_pos hp]
    · have skipped : ¬ p x = true := fun e => by
        have := first x List.mem_cons_self hx e
        rw [List.idxOf_cons_self] at this
        exact absurd this (Nat.not_lt_zero _)
      rw [List.find?_cons_of_neg skipped]
      refine ih ((List.mem_cons.mp ha).resolve_left (Ne.symm hx)) fun b hb hba hpb => ?_
      have hbx : x ≠ b := fun e => skipped (e ▸ hpb)
      have := first b (List.mem_cons_of_mem x hb) hba hpb
      rw [List.idxOf_cons_ne _ hx, List.idxOf_cons_ne _ hbx] at this
      exact Nat.lt_of_succ_lt_succ this

section
variable {s : State} {i : StreamNo}

theorem State.RotationOk.mem (hs : s.RotationOk) (i : StreamNo) : i ∈ s.rotation :=
  hs.1.mem_iff.mpr (List.mem_finRange i)

/-- OVERRIDE ranks above NORMAL, and streams of one class by the rotation list (R82). -/
theorem arbitrate_eq_some (hs : s.RotationOk) (hr : s.requests i = true)
    (first : ∀ j, j ≠ i → s.requests j = true → (s.stream i).cls = .override ∧ (s.stream j).cls = .normal ∨
      (s.stream i).cls = (s.stream j).cls ∧ s.rotation.idxOf i < s.rotation.idxOf j) : s.arbitrate = some i := by
  cases hc : (s.stream i).cls with
  | override =>
    have found : s.rotation.find? (fun j => s.requests j && decide ((s.stream j).cls = .override)) = some i := by
      refine find?_eq_of_idxOf_lt (hs.mem i) (by simp [hr, hc]) fun j _ hj hp => ?_
      obtain ⟨asks, cls⟩ : s.requests j = true ∧ (s.stream j).cls = .override := by simpa using hp
      rcases first j hj asks with ⟨-, e⟩ | ⟨-, before⟩
      · rw [cls] at e
        cases e
      · exact before
    rw [State.arbitrate, found]
  | normal =>
    have none : s.rotation.find? (fun j => s.requests j && decide ((s.stream j).cls = .override)) = none := by
      refine List.find?_eq_none.mpr fun j _ hp => ?_
      obtain ⟨asks, cls⟩ : s.requests j = true ∧ (s.stream j).cls = .override := by simpa using hp
      have other : j ≠ i := fun e => by
        rw [e, hc] at cls
        cases cls
      rcases first j other asks with ⟨e, -⟩ | ⟨e, -⟩ <;> rw [hc] at e
      · cases e
      · rw [cls] at e
        cases e
    rw [State.arbitrate, none]
    refine find?_eq_of_idxOf_lt (hs.mem i) hr fun j _ hj asks => ?_
    rcases first j hj asks with ⟨e, -⟩ | ⟨-, before⟩
    · rw [hc] at e
      cases e
    · exact before

theorem arbitrate_eq_none (h : ∀ i, s.requests i = false) : s.arbitrate = none := by
  cases ha : s.arbitrate with
  | none => rfl
  | some i =>
    have := (State.arbitrate_requests ha).1
    rw [h i] at this
    cases this

/-! ### GRANT -/

theorem rotated_eq (mode : ArbMode) (i : StreamNo) (l : List StreamNo) :
    rotated mode i l = if mode = .rotating then l.erase i ++ [i] else l := by
  cases mode <;> rfl

theorem exec_grant_busy (h : s.inFlight.isSome = true) : exec .grant s = .next s := by
  obtain ⟨m, hm⟩ := Option.isSome_iff_exists.mp h
  change execGrant s = _
  rw [execGrant, hm]

theorem exec_grant_idle (h : s.inFlight = none) (ha : s.arbitrate = none) : exec .grant s = .next s := by
  change execGrant s = _
  rw [execGrant, h, ha]

theorem exec_grant_to (h : s.inFlight = none) (ha : s.arbitrate = some i) : exec .grant s = .next (s.grantTo i) := by
  change execGrant s = _
  rw [execGrant, h, ha]

theorem grantTo_play {h : Handle} {f : FrameNo} (hd : (s.stream i).direction = .play) (hf : s.headFrame i = some (h, f)) :
    s.grantTo i = { s with inFlight := some (s.playMove i h f), rotation := rotated s.mode i s.rotation } := by
  rw [State.grantTo, hd]
  simp only [State.grantPlay, hf]

theorem grantTo_capture {e : BacklogEntry} {es : List BacklogEntry} (hd : (s.stream i).direction = .capture)
    (hb : (s.stream i).backlog = e :: es) :
    s.grantTo i = { s.modStream i (fun st => { st with backlog := es }) with
      inFlight := some (s.captureMove i e), rotation := rotated s.mode i s.rotation } := by
  rw [State.grantTo, hd]
  simp only [State.grantCapture, hb]

end

/-- Settles O36. -/
theorem grantFirstRanked : Obligations.GrantFirstRanked := by
  constructor
  · intro s i hidle hs hr first rotation mute
    have granted := exec_grant_to hidle (arbitrate_eq_some hs hr first)
    have list : rotation = rotated s.mode i s.rotation := (rotated_eq s.mode i s.rotation).symm
    rw [granted, list]
    refine ⟨fun h q S hd hq hS => ?_, fun e es hd hb => ?_⟩
    · rw [requests_play hd, playRequests_iff] at hr
      obtain ⟨-, -, h', f, head, -⟩ := hr
      rw [grantTo_play hd head]
      obtain ⟨q', S', hq', -, -, hS', rfl⟩ := headFrame_eq_some_iff.mp head
      cases hq.symm.trans hq'
      cases hS.symm.trans hS'
      rfl
    · rw [grantTo_capture hd hb]
      rfl
  · intro s h
    rcases h with busy | quiet
    · exact exec_grant_busy busy
    · cases hm : s.inFlight with
      | none => exact exec_grant_idle hm (arbitrate_eq_none quiet)
      | some m => exact exec_grant_busy (by rw [hm]; rfl)

/-! ### SET ARBITRATION (R84) -/

theorem arbModeOf_eq_none {b : Byte} (h : 2 ≤ b.toNat) : arbModeOf b = none := by
  unfold arbModeOf
  split
  · omega
  · omega
  · rfl

theorem setArbitration_taken {s : State} {r : Request} {rest : List Request} {b : Byte} (h : s.port.inbound = r :: rest)
    (hk : r.kind = 0x41) (hp : r.payload = [b]) : exec .setArbitration s = .next
      ((s.modPort fun p => { p with inbound := rest }).answer .setArbitration r (checkSetArbitration [b]) fun m =>
        ({ s.modPort (fun p => { p with inbound := rest }) with mode := m, rotation := List.finRange 12 } : State).reply r .ok
          .nothing) := by
  refine congrArg Host.Outcome.next ((State.takeKind_act h (by rw [hk]; rfl) rfl (by rw [hp]; rfl)).trans ?_)
  rw [hp]

/-- Settles O40. -/
theorem setArbitrationResetsList : Obligations.SetArbitrationResetsList := by
  intro s r rest b hin hk hp
  rw [setArbitration_taken hin hk hp]
  refine ⟨?_, ?_, fun hb => ?_⟩
  · rintro rfl
    rfl
  · rintro rfl
    rfl
  · have refused : checkSetArbitration [b] = .error .badField := by
      rw [checkSetArbitration, byteAt_cons_zero, arbModeOf_eq_none hb]
    rw [refused, State.answer_error, State.refuse_taken]
    rfl

end Sys2Proof.Machine

/-! ## A head retired by its last position, and what comes behind it (R12, R32, R33, R44 to R46) -/

namespace Sys2Proof.Machine

section
variable {s u w : State} {i : StreamNo} {h : Handle} {q : List Handle} {t : FrameTime}

theorem resolvedOutcome_ne_discarded (d : Descriptor) : d.resolvedOutcome ≠ .discarded := by
  unfold Descriptor.resolvedOutcome
  split <;> exact DoneOutcome.noConfusion

/-- The record of a descriptor retired by its last position (Table 2-3, R45, R46). -/
theorem retired_by_resolution {d : Descriptor} (hr : d.resolved = d.frames) (hf : 0 < d.frames) :
    (d.retire d.resolvedOutcome).emptied = { d with
      state := .retired, gone := max d.gone d.pages.length, counts := { d.counts with unreached := 0 }
      outcome := some (if d.counts.late = d.frames then .late else .complete)
      endFrame := d.span.map fun S => frameOf S (d.frames - 1) } := by
  have some : ¬ (d.resolvedOutcome = .discarded ∨ d.frames = 0) :=
    not_or.mpr ⟨resolvedOutcome_ne_discarded d, Nat.ne_of_gt hf⟩
  simp only [Descriptor.retire, Descriptor.emptied, hr, if_neg (resolvedOutcome_ne_discarded d), if_neg some, Nat.sub_self]
  rfl

/-- In `u` the head `h` of the queue of stream `i`, with `q` behind it, has every position resolved; in `w` the queue has come to
rest. -/
structure HeadRetired (u w : State) (i : StreamNo) (h : Handle) (q : List Handle) : Prop where
  frame : QueueFrame i u w
  desc : w.desc h = ((u.desc h).retire (u.desc h).resolvedOutcome).emptied
  queue : h ∉ (w.stream i).queue
  free : u.freeList ++ (u.desc h).leftPages <+: w.freeList
  claims : u.claims ++ ((u.desc h).partClaim h ++ [.done h]) <+: w.claims
  alone : q = [] → w = u.retireResolved i h

theorem settleAt_spent (hq : (s.stream i).queue = h :: q) (hs : (s.desc h).spent = true) :
    s.settleAt i t = State.settleQueue i t (2 * (q.length + 1)) (s.retireResolved i h) := by
  rw [State.settleAt, State.turns, hq, List.length_cons, settleQueue_spent _ hq hs]

theorem settleAt_headRetired (hq : (s.stream i).queue = h :: q) (hout : h ∉ q) (hs : (s.desc h).spent = true) :
    HeadRetired s (s.settleAt i t) i h q := by
  have own := settleAt_frame s i t
  rw [settleAt_spent hq hs] at own ⊢
  have rest := settleQueue_frame i t (2 * (q.length + 1)) (s.retireResolved i h)
  have drained := QueueFrame.drainIfEmpty i (s.retire i h (s.desc h).resolvedOutcome)
  have queue : ((s.retire i h (s.desc h).resolvedOutcome).stream i).queue = q := by
    rw [retire_stream, if_pos rfl, hq, List.erase_cons_head]
  have left : h ∉ ((s.retireResolved i h).stream i).queue := fun e => hout (queue ▸ drained.queue.subset e)
  refine ⟨own, ?_, fun e => left (rest.queue.subset e), ?_, ?_, fun e => settleQueue_rests _ (rests_of_empty ?_)⟩
  · rw [rest.descs h left, State.retireResolved, drained.descs h (by rw [queue]; exact hout), retire_desc, if_pos rfl]
  · rw [← retire_freeList s i h (s.desc h).resolvedOutcome]
    exact drained.free.trans rest.free
  · rw [← retire_claims s i h (s.desc h).resolvedOutcome]
    exact drained.claims.trans rest.claims
  · rw [e] at queue
    exact List.sublist_nil.mp (queue ▸ drained.queue)

/-- With more behind it, or in a stream that is not STOPPING, nothing drains. -/
theorem retireResolved_stays (hq : (s.stream i).queue = h :: q) (hn : (s.stream i).state ≠ .stopping ∨ q ≠ []) :
    s.retireResolved i h = s.retire i h (s.desc h).resolvedOutcome := by
  refine drainIfEmpty_stays ?_
  rw [retire_stream, if_pos rfl, hq, List.erase_cons_head]
  exact hn

/-- With nothing behind the head, a stream that is not STOPPING is left with an empty queue. -/
theorem HeadRetired.quiet (a : HeadRetired u w i h []) (hq : (u.stream i).queue = [h]) (hs : (u.stream i).state ≠ .stopping) :
    w.stream i = { u.stream i with queue := [] } ∧ w.freeList = u.freeList ++ (u.desc h).leftPages ∧
      w.claims = u.claims ++ ((u.desc h).partClaim h ++ [.done h]) := by
  rw [a.alone rfl, retireResolved_stays hq (.inl hs)]
  refine ⟨?_, retire_freeList u i h _, retire_claims u i h _⟩
  rw [retire_stream, if_pos rfl, hq, List.erase_cons_head]

/-- With nothing behind the head, a STOPPING stream is drained (R12). -/
theorem HeadRetired.drained (a : HeadRetired u w i h []) (hq : (u.stream i).queue = [h]) (hs : (u.stream i).state = .stopping) :
    w.stream i = { u.stream i with
      queue := [], state := .idle, gapOpen := false, record := { (u.stream i).record with drained := true } } ∧
    w.freeList = u.freeList ++ (u.desc h).leftPages ∧
    w.claims =
      let done := u.claims ++ ((u.desc h).partClaim h ++ [.done h])
      if Claim.streamEvent i ∈ done then done else done ++ [.streamEvent i] := by
  have stream : (u.retire i h (u.desc h).resolvedOutcome).stream i = { u.stream i with queue := [] } := by
    rw [retire_stream, if_pos rfl, hq, List.erase_cons_head]
  have drains : u.retireResolved i h = _ := drainIfEmpty_drains (by rw [stream]; exact hs) (by rw [stream])
  rw [a.alone rfl, drains]
  refine ⟨?_, ?_, ?_⟩
  · rw [State.raiseOnce_stream, State.stream_modStream_same, stream]
  · rw [State.raiseOnce_freeList, State.modStream_freeList, retire_freeList]
  · rw [State.raiseOnce_claims, State.modStream_claims, retire_claims]

/-! ### An IMMEDIATE play descriptor behind it (R32, R33) -/

/-- An IMMEDIATE play descriptor becomes WAITING from the first free frame, with no position late. -/
theorem makePlayEligible_immediate (hstart : (s.desc h).start = .immediate) (hres : (s.desc h).resolved = 0)
    (hf : 1 ≤ (s.desc h).frames) : s.makePlayEligible i h t =
      s.modDesc h fun d => { d with state := .waiting, span := some (s.firstFree i t) } := by
  have span : (s.desc h).start.spanStart (s.firstFree i t) = s.firstFree i t := by rw [hstart]; rfl
  have entries : (s.desc h).doneEntries 0 = 0 := by
    rw [Descriptor.doneEntries, if_neg (Nat.not_le.mpr hf), Nat.zero_mul, Nat.zero_div]
  have none : (({ s.desc h with state := .waiting, span := some (s.firstFree i t) } : Descriptor).endedPages 0) = [] := by
    rw [Descriptor.endedPages, show _ + 0 = 0 from hres]
    exact (congrArg (fun n => ((s.desc h).pages.take n).drop (s.desc h).gone) entries).trans List.drop_nil
  have record : (s.desc h).playStart (s.firstFree i t) (s.firstFree i t) =
      { s.desc h with state := .waiting, span := some (s.firstFree i t) } := by
    have gone : max (s.desc h).gone ((s.desc h).doneEntries ((s.desc h).resolved + 0)) = (s.desc h).gone := by
      rw [hres, entries, Nat.max_zero]
    rw [Descriptor.playStart, playLateCount_self]
    exact congrArg (fun g => ({ s.desc h with state := .waiting, span := some (s.firstFree i t), gone := g } : Descriptor)) gone
  rw [makePlayEligible_eq, span, playLateCount_self, none, State.release, List.append_nil]
  exact State.modDesc_congr (f := fun d => d.playStart (s.firstFree i t) (s.firstFree i t))
    (g := fun d => { d with state := .waiting, span := some (s.firstFree i t) }) record

theorem settleQueue_immediate (k : Nat) (hd : (s.stream i).direction = .play) (hm : (s.stream i).moving = true)
    (hq : (s.stream i).queue = h :: q) (hr : (s.desc h).state = .ready) (hstart : (s.desc h).start = .immediate)
    (hres : (s.desc h).resolved = 0) (hf : 1 ≤ (s.desc h).frames) : State.settleQueue i t (k + 1) s =
      s.modDesc h fun d => { d with state := .waiting, span := some (s.firstFree i t) } := by
  rw [settleQueue_eligible k hq (not_spent_of_ready hr) (nextEligible_ready_head hm hq hr), makeEligible_play hd,
    makePlayEligible_immediate hstart hres hf]
  refine settleQueue_rests k (rests_of_waiting_head hq ?_ ?_ fun e => ?_)
  · rw [State.desc_modDesc_same]
    rfl
  · rw [State.desc_modDesc_same]
    refine (spent_iff rfl).mpr ?_
    dsimp only
    omega
  · exact absurd (hd.symm.trans e) Direction.noConfusion

end

end Sys2Proof.Machine

/-! ## COMPLETION of a play move (R12, R37, R44 to R46, R58, R69, R72, R74) -/

namespace Sys2Proof.Machine

section
variable {s : State} {m : Move}

theorem exec_completion_idle (h : s.inFlight = none) : exec .completion s = .next s := by
  change execCompletion s = _
  rw [execCompletion, h]

theorem exec_completion_void (h : s.inFlight = some m) (hv : m.void = true) :
    exec .completion s = .next { s with inFlight := none } := by
  change execCompletion s = _
  simp only [execCompletion, h, hv, if_true]

theorem exec_completion_play (h : s.inFlight = some m) (hv : m.void = false) (hk : m.kind = none) :
    exec .completion s = .next (({ s with inFlight := none } : State).completePlay m) := by
  change execCompletion s = _
  simp only [execCompletion, h, hv, hk, Bool.false_eq_true, if_false]

/-! ### The entry placed and the position resolved -/

/-- FILL in the frames between, the entry at its frame (R72). -/
theorem placeInRing_eq {ring : List RingEntry} {n : Nat} (h : ring.length ≤ n) (e : RingEntry) :
    placeInRing ring n e = ring ++ List.replicate (n - ring.length) RingEntry.fill ++ [e] := by
  rw [placeInRing, List.take_of_length_le h]

/-- R37: the position counts muted under the mute mark, else sounded. -/
def Move.movedCounts (m : Move) (c : Counts) : Counts :=
  if m.mute then { c with muted := c.muted + 1 } else { c with sounded := c.sounded + 1 }

theorem addPlay_moved (c : Counts) (m : Move) : c.addPlay (if m.mute then .muted else .sounded) 1 = m.movedCounts c := by
  unfold Move.movedCounts
  cases m.mute <;> rfl

theorem placed_record : (s.placed m).desc m.handle = { s.desc m.handle with
    state := .active, resolved := (s.desc m.handle).resolved + 1
    counts := m.movedCounts (s.desc m.handle).counts
    gone := max (s.desc m.handle).gone ((s.desc m.handle).doneEntries ((s.desc m.handle).resolved + 1)) } := by
  rw [placed_desc_same, Descriptor.resolvePlay, addPlay_moved]
  rfl

theorem placed_freeList : (s.placed m).freeList = s.freeList ++ (s.desc m.handle).endedPages 1 := by
  rw [State.placed, State.resolvePlay_eq, State.desc_modDesc_same]
  rfl

theorem doneEntries_middle {d : Descriptor} {r : Nat} (h : r < d.frames) : d.doneEntries r = r * (d.bytes / d.frames) / 512 :=
  if_neg (Nat.not_le.mpr h)

theorem doneEntries_last {d : Descriptor} {r : Nat} (h : r = d.frames) : d.doneEntries r = d.pages.length :=
  if_pos (Nat.le_of_eq h.symm)

/-- The pages between what a record has given up and what it now has (R58). -/
theorem drop_take_max {α : Type} (l : List α) (g n : Nat) : (l.take n).drop g = (l.take (max g n)).drop g := by
  rw [List.drop_take, List.drop_take]
  congr 1
  omega

/-! ### Before the last position -/

theorem completePlay_middle {q : List Handle} (hd : (s.stream m.stream).direction = .play)
    (hq : (s.stream m.stream).queue = m.handle :: q) (hr : (s.desc m.handle).resolved + 1 < (s.desc m.handle).frames) :
    s.completePlay m = s.placed m := by
  rw [completePlay_eq]
  have eligible : ((s.placed m).desc m.handle).eligible = true := by rw [placed_record]; rfl
  refine settleAt_rests (rests_of_waiting_head (by rw [placed_queue]; exact hq) eligible ((spent_iff eligible).mpr ?_) fun e => ?_)
  · rw [placed_record]
    exact hr
  · rw [placed_stream] at e
    exact absurd (hd.symm.trans e) Direction.noConfusion

/-! ### The last position -/

theorem placed_spent (hr : (s.desc m.handle).resolved + 1 = (s.desc m.handle).frames) : ((s.placed m).desc m.handle).spent = true := by
  rw [placed_record]
  exact decide_eq_true (Nat.le_of_eq hr.symm)

theorem completePlay_last {q : List Handle} (hq : (s.stream m.stream).queue = m.handle :: q) (hout : m.handle ∉ q)
    (hr : (s.desc m.handle).resolved + 1 = (s.desc m.handle).frames) :
    HeadRetired (s.placed m) (s.completePlay m) m.stream m.handle q :=
  settleAt_headRetired (by rw [placed_queue]; exact hq) hout (placed_spent hr)

theorem placed_leftPages (hd : (s.desc m.handle).direction = .play)
    (hr : (s.desc m.handle).resolved + 1 = (s.desc m.handle).frames) :
    (s.placed m).freeList ++ ((s.placed m).desc m.handle).leftPages =
      s.freeList ++ (s.desc m.handle).pages.drop (s.desc m.handle).gone := by
  have none : ((s.placed m).desc m.handle).leftPages = [] := by
    rw [placed_record, Descriptor.leftPages, Descriptor.heldPages]
    dsimp only
    rw [hd, doneEntries_last hr]
    exact List.drop_eq_nil_of_le (Nat.le_max_right _ _)
  rw [none, List.append_nil, placed_freeList, Descriptor.endedPages, doneEntries_last hr, List.take_length]

theorem placed_partClaim (hd : (s.desc m.handle).direction = .play) : ((s.placed m).desc m.handle).partClaim m.handle = [] := by
  rw [placed_record, Descriptor.partClaim]
  dsimp only
  rw [hd]

/-- The record of the descriptor of move `m` once its last position has been played (R45, R46). -/
def State.playedRecord (s : State) (m : Move) : Descriptor :=
  { s.desc m.handle with
    state := .retired, resolved := (s.desc m.handle).frames
    gone := max (s.desc m.handle).gone (s.desc m.handle).pages.length
    counts := { m.movedCounts (s.desc m.handle).counts with unreached := 0 }
    outcome := some (if (m.movedCounts (s.desc m.handle).counts).late = (s.desc m.handle).frames then .late else .complete)
    endFrame := (s.desc m.handle).span.map fun S => S + BitVec.ofNat 32 ((s.desc m.handle).frames - 1) }

theorem placed_retired (hr : (s.desc m.handle).resolved + 1 = (s.desc m.handle).frames) :
    (((s.placed m).desc m.handle).retire ((s.placed m).desc m.handle).resolvedOutcome).emptied = s.playedRecord m := by
  rw [placed_record, retired_by_resolution hr (by dsimp only; omega), State.playedRecord]
  dsimp only
  rw [doneEntries_last hr, hr, Nat.max_assoc, Nat.max_self]
  rfl

/-- The first free frame follows the frame just placed (R33). -/
theorem firstFree_placed {v : State} (hring : (s.stream m.stream).ring.length ≤ (m.frame - s.clock m.stream).toNat)
    (hv : (v.stream m.stream).ring = ((s.placed m).stream m.stream).ring) :
    v.firstFree m.stream ((s.placed m).domain ((s.placed m).stream m.stream).domain).now = m.frame + 1 := by
  have reached : frameOf (s.clock m.stream) (m.frame - s.clock m.stream).toNat = m.frame := by
    have := frameOf_reached (f := m.frame) (S := s.clock m.stream) (p := 0) (by rw [BitVec.add_zero])
    rwa [Nat.zero_add] at this
  have clock : ((s.placed m).domain ((s.placed m).stream m.stream).domain).now.playN = s.clock m.stream := by
    rw [placed_stream]
    rfl
  rw [State.firstFree, clock, Stream.lead, hv, placed_stream]
  dsimp only
  rw [placeInRing_length _ hring]
  exact frameOf_succ reached

/-- An IMMEDIATE descriptor READY behind the one that retires is WAITING from the next frame (R32, R33, R44 step 5). -/
theorem completePlay_next {h' : Handle} {q' : List Handle} (hd : (s.stream m.stream).direction = .play)
    (hq : (s.stream m.stream).queue = m.handle :: h' :: q') (hout : m.handle ∉ h' :: q')
    (hr : (s.desc m.handle).resolved + 1 = (s.desc m.handle).frames)
    (hring : (s.stream m.stream).ring.length ≤ (m.frame - s.clock m.stream).toNat) (hm : (s.stream m.stream).moving = true)
    (hready : (s.desc h').state = .ready) (hstart : (s.desc h').start = .immediate) (hf : 1 ≤ (s.desc h').frames)
    (hres : (s.desc h').resolved = 0) : s.completePlay m =
      ((s.placed m).retire m.stream m.handle ((s.placed m).desc m.handle).resolvedOutcome).modDesc h' fun d =>
        { d with state := .waiting, span := some (m.frame + 1) } := by
  have queue : ((s.placed m).stream m.stream).queue = m.handle :: h' :: q' := by rw [placed_queue]; exact hq
  have ne : h' ≠ m.handle := fun e => hout (e ▸ List.mem_cons_self)
  rw [completePlay_eq, State.settle, settleAt_spent queue (placed_spent hr), retireResolved_stays queue (.inr (List.cons_ne_nil _ _))]
  have stream := retire_stream (s.placed m) m.stream m.stream m.handle ((s.placed m).desc m.handle).resolvedOutcome
  have next := retire_desc (s.placed m) m.stream m.handle h' ((s.placed m).desc m.handle).resolvedOutcome
  rw [if_pos rfl, queue, List.erase_cons_head] at stream
  rw [if_neg ne, placed_desc_ne ne] at next
  have first := firstFree_placed (v := (s.placed m).retire m.stream m.handle ((s.placed m).desc m.handle).resolvedOutcome) hring
    (by rw [stream])
  rw [← first]
  refine settleQueue_immediate (q := q') _ ?_ ?_ (by rw [stream]) (by rw [next]; exact hready) (by rw [next]; exact hstart)
    (by rw [next]; exact hres) (by rw [next]; exact hf)
  · rw [stream, placed_stream]
    exact hd
  · rw [stream, placed_stream]
    exact hm

/-! ### What a completion leaves -/

theorem completePlay_frame (s : State) (m : Move) : QueueFrame m.stream (s.placed m) (s.completePlay m) := settle_frame _ _

/-- FILL up to the frame of the move, and its entry there: the lead is F − N + 1 (R72). -/
theorem completePlay_ring (hring : (s.stream m.stream).ring.length ≤ (m.frame - s.clock m.stream).toNat) :
    ((s.completePlay m).stream m.stream).ring = (s.stream m.stream).ring ++
      List.replicate ((m.frame - s.clock m.stream).toNat - (s.stream m.stream).ring.length) RingEntry.fill ++ [s.placedEntry m] := by
  rw [(completePlay_frame s m).ring, placed_stream, placeInRing_eq hring]

theorem placed_context : (s.placed m).stream m.stream =
    { s.stream m.stream with ring := ((s.completePlay m).stream m.stream).ring } := by
  rw [(completePlay_frame s m).ring, placed_stream]

/-- Before the last position: the position counted, and the pages that it ends released (R37, R58). -/
theorem completePlay_resolves {q : List Handle} (hd : (s.stream m.stream).direction = .play)
    (hq : (s.stream m.stream).queue = m.handle :: q) (hr : (s.desc m.handle).resolved + 1 < (s.desc m.handle).frames) :
    let d := s.desc m.handle
    let gone := max d.gone ((d.resolved + 1) * (d.bytes / d.frames) / 512)
    (s.completePlay m).stream m.stream = { s.stream m.stream with ring := ((s.completePlay m).stream m.stream).ring } ∧
      (∀ h, (s.completePlay m).desc h = if h = m.handle then
        { d with state := .active, resolved := d.resolved + 1, counts := m.movedCounts d.counts, gone := gone } else s.desc h) ∧
      (s.completePlay m).freeList = s.freeList ++ (d.pages.take gone).drop d.gone ∧ (s.completePlay m).claims = s.claims := by
  intro d gone
  have context := placed_context (s := s) (m := m)
  have record := placed_record (s := s) (m := m)
  have freed := placed_freeList (s := s) (m := m)
  have ended := doneEntries_middle hr
  rw [ended] at record
  rw [Descriptor.endedPages, ended, drop_take_max] at freed
  rw [completePlay_middle hd hq hr] at context ⊢
  refine ⟨context, fun h => ?_, freed, rfl⟩
  split
  · next e => rw [e]; exact record
  · next e => exact placed_desc_ne e

/-- What the last position of the descriptor of move `m`, with `q` behind it, leaves in `t`. -/
structure LastPlayed (s t : State) (m : Move) (q : List Handle) : Prop where
  desc : t.desc m.handle = s.playedRecord m
  others : ∀ h, h ≠ m.handle → h ∉ q → t.desc h = s.desc h
  queue : m.handle ∉ (t.stream m.stream).queue
  free : s.freeList ++ (s.desc m.handle).pages.drop (s.desc m.handle).gone <+: t.freeList
  claims : s.claims ++ [Claim.done m.handle] <+: t.claims
  quiet : q = [] → (s.stream m.stream).state ≠ .stopping →
    t.stream m.stream = { s.stream m.stream with ring := (t.stream m.stream).ring, queue := q } ∧
    t.freeList = s.freeList ++ (s.desc m.handle).pages.drop (s.desc m.handle).gone ∧
    t.claims = s.claims ++ [Claim.done m.handle]
  drained : q = [] → (s.stream m.stream).state = .stopping →
    t.freeList = s.freeList ++ (s.desc m.handle).pages.drop (s.desc m.handle).gone ∧
    t.stream m.stream = { s.stream m.stream with
      ring := (t.stream m.stream).ring, queue := q, state := .idle, gapOpen := false
      record := { (s.stream m.stream).record with drained := true } } ∧
    t.claims = if Claim.streamEvent m.stream ∈ s.claims then s.claims ++ [Claim.done m.handle]
      else s.claims ++ [Claim.done m.handle] ++ [.streamEvent m.stream]
  next : ∀ h' q', q = h' :: q' → (s.stream m.stream).moving = true → (s.desc h').state = .ready →
    (s.desc h').start = .immediate → 1 ≤ (s.desc h').frames → (s.desc h').resolved = 0 →
    t.desc h' = { s.desc h' with state := .waiting, span := some (m.frame + 1) } ∧
    (∀ h ∈ q', h ≠ h' → t.desc h = s.desc h) ∧
    t.stream m.stream = { s.stream m.stream with ring := (t.stream m.stream).ring, queue := q } ∧
    t.freeList = s.freeList ++ (s.desc m.handle).pages.drop (s.desc m.handle).gone ∧
    t.claims = s.claims ++ [Claim.done m.handle]

theorem completePlay_lastPlayed {q : List Handle} (hd : (s.stream m.stream).direction = .play)
    (hq : (s.stream m.stream).queue = m.handle :: q) (hout : m.handle ∉ q) (hdd : (s.desc m.handle).direction = .play)
    (hr : (s.desc m.handle).resolved + 1 = (s.desc m.handle).frames)
    (hring : (s.stream m.stream).ring.length ≤ (m.frame - s.clock m.stream).toNat) : LastPlayed s (s.completePlay m) m q := by
  have context := placed_context (s := s) (m := m)
  have queue : ((s.placed m).stream m.stream).queue = m.handle :: q := by rw [placed_queue]; exact hq
  have last := completePlay_last hq hout hr
  have free := placed_leftPages hdd hr
  have claims : (s.placed m).claims ++ (((s.placed m).desc m.handle).partClaim m.handle ++ [Claim.done m.handle]) =
      s.claims ++ [Claim.done m.handle] := by
    rw [placed_partClaim hdd]
    rfl
  refine ⟨last.desc.trans (placed_retired hr), fun h hh hn => ?_, last.queue, free ▸ last.free, claims ▸ last.claims,
    fun e hs => ?_, fun e hs => ?_, fun h' q' e hm hready hstart hf hres => ?_⟩
  · have out : h ∉ ((s.placed m).stream m.stream).queue := by
      rw [queue]
      exact List.not_mem_cons_of_ne_of_not_mem hh hn
    rw [last.frame.descs h out, placed_desc_ne hh]
  · subst e
    obtain ⟨stream, pages, list⟩ := last.quiet queue (by rw [context]; exact hs)
    exact ⟨stream.trans (by rw [context]), pages.trans free, list.trans claims⟩
  · subst e
    obtain ⟨stream, pages, list⟩ := last.drained queue (by rw [context]; exact hs)
    refine ⟨pages.trans free, stream.trans (by rw [context]), list.trans ?_⟩
    rw [claims]
    simp
  · subst e
    have ne : h' ≠ m.handle := fun e => hout (e ▸ List.mem_cons_self)
    have next := completePlay_next hd hq hout hr hring hm hready hstart hf hres
    have others : ∀ x, x ≠ m.handle →
        ((s.placed m).retire m.stream m.handle ((s.placed m).desc m.handle).resolvedOutcome).desc x = s.desc x := fun x hx => by
      rw [retire_desc, if_neg hx, placed_desc_ne hx]
    have stream := retire_stream (s.placed m) m.stream m.stream m.handle ((s.placed m).desc m.handle).resolvedOutcome
    rw [if_pos rfl, queue, List.erase_cons_head, context] at stream
    refine ⟨?_, fun x hx hne => ?_, (congrArg (fun u : State => u.stream m.stream) next).trans stream, ?_, ?_⟩
    · rw [next, State.desc_modDesc_same, others h' ne]
    · rw [next, State.desc_modDesc_ne _ _ hne, others x fun e => hout (e ▸ List.mem_cons_of_mem h' hx)]
    · rw [next, State.modDesc_freeList, retire_freeList, free]
    · rw [next, State.modDesc_claims, retire_claims, claims]

end

/-- Settles O38. -/
theorem playCompletion : Obligations.PlayCompletion := by
  refine ⟨fun s => exec_completion_idle, fun s m => exec_completion_void, ?_⟩
  intro s m q hflight hv hk hd hq hout hdd he hp hlt st d n hn hring entry counts
  have own := completePlay_frame { s with inFlight := none } m
  refine ⟨_, exec_completion_play hflight hv hk, own.inFlight, completePlay_ring (s := { s with inFlight := none }) hring,
    fun j hj => (own.others j hj).trans (placed_stream_ne hj), own.rest,
    completePlay_resolves (s := { s with inFlight := none }) hd hq, fun hr => ?_⟩
  obtain ⟨desc, others, queue, free, claims, quiet, drained, next⟩ :=
    completePlay_lastPlayed (s := { s with inFlight := none }) hd hq hout hdd hr hring
  exact ⟨desc, others, queue, free, claims, quiet, drained, fun h' q' e hst => next h' q' e (moving_iff.mpr hst)⟩

end Sys2Proof.Machine

/-! ## COMPLETION of a capture move (R12, R42 to R46, R56, R60, R61, R74, R77) -/

namespace Sys2Proof.Machine

section
variable {s : State} {m : Move} {k : EntryKind}

theorem exec_completion_capture (h : s.inFlight = some m) (hv : m.void = false) (hk : m.kind = some k) :
    exec .completion s = .next (({ s with inFlight := none } : State).completeCapture m k) := by
  change execCompletion s = _
  simp only [execCompletion, h, hv, hk, Bool.false_eq_true, if_false]

/-! ### The bytes written (R42, R77) -/

theorem completeCapture_mem : (s.completeCapture m k).mem = s.writtenMem m := by
  rw [completeCapture_eq, settle_memory, passFilled_memory]
  rfl

/-- Position `p` of a record, and the positions before it, lie within its bytes. -/
theorem position_within {d : Descriptor} {p : Nat} (hp : p < d.frames) : p * d.frameSize + d.frameSize ≤ d.bytes :=
  calc p * d.frameSize + d.frameSize = (p + 1) * d.frameSize := (Nat.succ_mul _ _).symm
    _ ≤ d.frames * d.frameSize := Nat.mul_le_mul_right _ hp
    _ ≤ d.bytes := Nat.mul_div_le _ _

/-- The bytes of the frame are at the position's offsets, and no other byte has changed (R42, R56). -/
theorem writtenMem_spec {bytes : List Byte} (hm : s.MemoryOk) (hn : (s.desc m.handle).pages.Nodup)
    (hl : (s.desc m.handle).pages.length = ((s.desc m.handle).bytes + 511) / 512) (hp : m.position < (s.desc m.handle).frames)
    (hb : m.captureBytes (s.stream m.stream).width (s.stream m.stream).channels = bytes)
    (hlen : bytes.length = (s.desc m.handle).frameSize) :
    (∀ j (hj : j < bytes.length), ∃ a, (s.desc m.handle).addr (m.position * (s.desc m.handle).frameSize + j) = some a ∧
      (s.writtenMem m).read a = bytes[j]) ∧
    ∀ a, (∀ j, j < (s.desc m.handle).frameSize → (s.desc m.handle).addr (m.position * (s.desc m.handle).frameSize + j) ≠ some a) →
      (s.writtenMem m).read a = s.mem.read a := by
  have within := position_within hp
  rw [State.writtenMem, hb]
  refine ⟨fun j hj => ?_, fun a ha => read_writeOffsets_ne _ _ _ _ fun j hj => ha j (hlen ▸ hj)⟩
  obtain ⟨a, ha⟩ := addr_isSome hl (b := m.position * (s.desc m.handle).frameSize + j) (by omega)
  refine ⟨a, ha, read_writeOffsets_at _ _ _ hm hj ha fun x _ hx => ?_⟩
  exact Nat.add_left_cancel (addr_injective hn hx ha)

/-! ### A filled page is handed on (R60) -/

theorem passFilled_stays {h : Handle} (hle : (s.desc h).written / 512 ≤ (s.desc h).gone) : s.passFilled h = s :=
  if_neg (Nat.not_lt.mpr hle)

theorem passFilled_passes {h : Handle} {p : PageNo} (hlt : (s.desc h).gone < (s.desc h).written / 512)
    (hp : (s.desc h).pages[(s.desc h).gone]? = some p) : s.passFilled h =
      (s.raiseClaim ((s.desc h).dataClaim h (s.desc h).gone 512 p)).modDesc h fun d => { d with gone := d.gone + 1 } := by
  obtain ⟨inside, rfl⟩ := List.getElem?_eq_some_iff.mp hp
  have held : (s.desc h).heldPages = (s.desc h).pages[(s.desc h).gone] :: (s.desc h).pages.drop ((s.desc h).gone + 1) :=
    List.drop_eq_getElem_cons inside
  have passes : s.passFilled h = s.passPage h 512 := if_pos hlt
  rw [passes, State.passPage, held]

/-- The DATA claim for the oldest page that record `d` holds, when `n` bytes written end it (R60). -/
def Descriptor.filledClaim (d : Descriptor) (h : Handle) (n : Nat) : List Claim :=
  if d.gone < n / 512 then (d.pages[d.gone]?).toList.map (d.dataClaim h d.gone 512) else []

/-- The number of bytes written once move `m` has completed (R61). -/
def State.writtenBytes (s : State) (m : Move) : Nat :=
  m.position * (s.desc m.handle).frameSize + (s.desc m.handle).frameSize

theorem written_record : (s.written m k).desc m.handle = { s.desc m.handle with
    resolved := (s.desc m.handle).resolved + 1, written := s.writtenBytes m, counts := (s.desc m.handle).counts.addCapture k } :=
  State.desc_modDesc_same _ m.handle _

/-- The position resolved, and the page that it fills handed on. -/
theorem written_passes {p : PageNo} (hlt : (s.desc m.handle).gone < s.writtenBytes m / 512)
    (hp : (s.desc m.handle).pages[(s.desc m.handle).gone]? = some p) : (s.written m k).passFilled m.handle =
      (({ s with mem := s.writtenMem m } : State).modDesc m.handle fun d => { d with
        resolved := d.resolved + 1, written := s.writtenBytes m, counts := d.counts.addCapture k, gone := d.gone + 1 }).raiseAll
        [(s.desc m.handle).dataClaim m.handle (s.desc m.handle).gone 512 p] := by
  have record := written_record (s := s) (m := m) (k := k)
  have once : (s.written m k).modDesc m.handle (fun d => { d with gone := d.gone + 1 }) =
      ({ s with mem := s.writtenMem m } : State).modDesc m.handle fun d => { d with
        resolved := d.resolved + 1, written := s.writtenBytes m, counts := d.counts.addCapture k, gone := d.gone + 1 } :=
    State.modDesc_modDesc { s with mem := s.writtenMem m } m.handle _ _
  rw [passFilled_passes (by rw [record]; exact hlt) (by rw [record]; exact hp), record]
  exact congrArg (fun u : State => u.raiseAll [(s.desc m.handle).dataClaim m.handle (s.desc m.handle).gone 512 p]) once

/-- The position resolved, and at most one page handed on. -/
theorem written_passFilled (hg : (s.desc m.handle).gone ≤ s.writtenBytes m / 512)
    (hn : s.writtenBytes m / 512 ≤ (s.desc m.handle).gone + 1) (hp : s.writtenBytes m / 512 ≤ (s.desc m.handle).pages.length) :
    (s.written m k).passFilled m.handle = (({ s with mem := s.writtenMem m } : State).modDesc m.handle fun d => { d with
      resolved := d.resolved + 1, written := s.writtenBytes m, counts := d.counts.addCapture k
      gone := s.writtenBytes m / 512 }).raiseAll ((s.desc m.handle).filledClaim m.handle (s.writtenBytes m)) := by
  have record := written_record (s := s) (m := m) (k := k)
  rcases Nat.lt_or_ge (s.desc m.handle).gone (s.writtenBytes m / 512) with hlt | hge
  · have next : s.writtenBytes m / 512 = (s.desc m.handle).gone + 1 := Nat.le_antisymm hn hlt
    have page := List.getElem?_eq_getElem (l := (s.desc m.handle).pages) (i := (s.desc m.handle).gone) (by omega)
    have same : ({ s with mem := s.writtenMem m } : State).modDesc m.handle (fun d => { d with
          resolved := d.resolved + 1, written := s.writtenBytes m, counts := d.counts.addCapture k, gone := d.gone + 1 }) =
        ({ s with mem := s.writtenMem m } : State).modDesc m.handle fun d => { d with
          resolved := d.resolved + 1, written := s.writtenBytes m, counts := d.counts.addCapture k
          gone := (s.desc m.handle).gone + 1 } :=
      State.modDesc_congr rfl
    rw [Descriptor.filledClaim, if_pos hlt, page, written_passes hlt page, next, same]
    rfl
  · have same : s.writtenBytes m / 512 = (s.desc m.handle).gone := Nat.le_antisymm hge hg
    rw [Descriptor.filledClaim, if_neg (Nat.not_lt.mpr hge), State.raiseAll_nil, passFilled_stays (by rw [record]; exact hge), same]
    exact State.modDesc_congr (s := { s with mem := s.writtenMem m }) (h := m.handle) rfl

/-! ### Before the last position -/

theorem readyCapture_of_stages {t : State} (h : ∀ x, (t.desc x).state = (s.desc x).state ∧
    (t.desc x).fullyAssigned = (s.desc x).fullyAssigned) (a : Option Handle) (q : List Handle) :
    t.readyCapture a q = s.readyCapture a q := by
  induction q generalizing a with
  | nil => rfl
  | cons x q ih => simp only [State.readyCapture, h x, ih]

/-- Which descriptor is next to become eligible depends on the states and on the assigned positions (R32). -/
theorem nextEligible_of_stages {t : State} {i : StreamNo} (hc : t.stream i = s.stream i)
    (h : ∀ x, (t.desc x).state = (s.desc x).state ∧ (t.desc x).fullyAssigned = (s.desc x).fullyAssigned) :
    t.nextEligible i = s.nextEligible i := by
  have play : t.readyPlay (s.stream i).queue = s.readyPlay (s.stream i).queue := by
    cases (s.stream i).queue with
    | nil => rfl
    | cons x q => simp only [State.readyPlay, h x]
  simp only [State.nextEligible, hc, play, readyCapture_of_stages h]

/-- A position stored at the head, and not its last one, makes nothing else due. -/
theorem rests_of_stored {t : State} {i : StreamNo} {h : Handle} {q : List Handle} {r b g : Nat} {c : Counts}
    (hc : t.stream i = s.stream i) (hq : (s.stream i).queue = h :: q) (he : (s.desc h).eligible = true) (hn : s.nextEligible i = none)
    (others : ∀ x, x ≠ h → t.desc x = s.desc x) (hr : r < (s.desc h).frames)
    (self : t.desc h = { s.desc h with resolved := r, written := b, counts := c, gone := g }) : t.Rests i := by
  refine ⟨fun x hx => ?_, (nextEligible_of_stages hc fun x => ?_).trans hn⟩
  · rw [hc, hq] at hx
    cases hx
    rw [self]
    exact (spent_iff (d := { s.desc h with resolved := r, written := b, counts := c, gone := g }) he).mpr hr
  · rcases eq_or_ne x h with rfl | hx
    · rw [self]
      exact ⟨rfl, rfl⟩
    · rw [others x hx]
      exact ⟨rfl, rfl⟩

theorem written_others {x : Handle} (h : x ≠ m.handle) : (s.written m k).desc x = s.desc x :=
  State.desc_modDesc_ne _ _ h

section
variable {q : List Handle}

theorem completeCapture_stays (hq : (s.stream m.stream).queue = m.handle :: q) (he : (s.desc m.handle).eligible = true)
    (hr : (s.desc m.handle).resolved + 1 < (s.desc m.handle).frames) (hn : s.nextEligible m.stream = none)
    (hle : s.writtenBytes m / 512 ≤ (s.desc m.handle).gone) : s.completeCapture m k = s.written m k := by
  have record := written_record (s := s) (m := m) (k := k)
  rw [completeCapture_eq, passFilled_stays (by rw [record]; exact hle)]
  exact settleAt_rests (rests_of_stored (s := s) rfl hq he hn (fun x => written_others) hr record)

theorem completeCapture_passes {p : PageNo} (hq : (s.stream m.stream).queue = m.handle :: q)
    (he : (s.desc m.handle).eligible = true) (hr : (s.desc m.handle).resolved + 1 < (s.desc m.handle).frames)
    (hn : s.nextEligible m.stream = none) (hlt : (s.desc m.handle).gone < s.writtenBytes m / 512)
    (hp : (s.desc m.handle).pages[(s.desc m.handle).gone]? = some p) : s.completeCapture m k =
      (({ s with mem := s.writtenMem m } : State).modDesc m.handle fun d => { d with
        resolved := d.resolved + 1, written := s.writtenBytes m, counts := d.counts.addCapture k, gone := d.gone + 1 }).raiseAll
        [(s.desc m.handle).dataClaim m.handle (s.desc m.handle).gone 512 p] := by
  rw [completeCapture_eq, written_passes hlt hp]
  refine settleAt_rests (rests_of_stored (s := s) (b := s.writtenBytes m) (g := (s.desc m.handle).gone + 1)
    (c := (s.desc m.handle).counts.addCapture k) rfl hq he hn (fun x hx => ?_) hr ?_)
  · rw [State.raiseAll_desc]
    exact State.desc_modDesc_ne _ _ hx
  · rw [State.raiseAll_desc]
    exact State.desc_modDesc_same _ m.handle _

end

/-! ### The last position -/

/-- The record of the descriptor of move `m`, its last position stored and the pages filled handed on (R60, R61). -/
def State.filledRecord (s : State) (m : Move) (k : EntryKind) : Descriptor :=
  { s.desc m.handle with
    resolved := (s.desc m.handle).resolved + 1, written := (s.desc m.handle).bytes
    counts := (s.desc m.handle).counts.addCapture k, gone := (s.desc m.handle).bytes / 512 }

/-- The record of the descriptor of move `m`, its last position stored, as it retires (R45, R46). -/
def State.storedRecord (s : State) (m : Move) (k : EntryKind) : Descriptor :=
  { s.desc m.handle with
    state := .retired, resolved := (s.desc m.handle).frames, written := (s.desc m.handle).bytes
    gone := (s.desc m.handle).pages.length, counts := { (s.desc m.handle).counts.addCapture k with unreached := 0 }
    outcome := some (if ((s.desc m.handle).counts.addCapture k).late = (s.desc m.handle).frames then .late else .complete)
    endFrame := (s.desc m.handle).span.map fun S => frameOf S ((s.desc m.handle).frames - 1) }

/-- The DATA claim for the page that a record leaves partly written (R61). -/
def Descriptor.endClaim (d : Descriptor) (h : Handle) : List Claim :=
  if d.bytes % 512 = 0 then [] else (d.pages[d.bytes / 512]?).toList.map (d.dataClaim h (d.bytes / 512) (d.bytes % 512))

/-- The move `m` stores the last position of its record, whose frames fill its bytes, and the pages before that position
have been handed on. -/
structure StoresLast (s : State) (m : Move) : Prop where
  direction : (s.desc m.handle).direction = .capture
  position : m.position = (s.desc m.handle).resolved
  last : (s.desc m.handle).resolved + 1 = (s.desc m.handle).frames
  bytes : (s.desc m.handle).bytes = (s.desc m.handle).frames * (s.desc m.handle).frameSize
  small : (s.desc m.handle).frameSize ≤ 512
  gone : (s.desc m.handle).gone = m.position * (s.desc m.handle).frameSize / 512
  pages : (s.desc m.handle).pages.length = ((s.desc m.handle).bytes + 511) / 512

namespace StoresLast

variable (a : StoresLast s m)
include a

theorem writtenBytes : s.writtenBytes m = (s.desc m.handle).bytes := by
  rw [State.writtenBytes, a.position, ← Nat.succ_mul, Nat.succ_eq_add_one, a.last, a.bytes]

/-- The position resolved, and the page that it fills handed on. -/
theorem passed : (s.written m k).passFilled m.handle = (({ s with mem := s.writtenMem m } : State).modDesc m.handle fun d => { d with
    resolved := d.resolved + 1, written := (s.desc m.handle).bytes, counts := d.counts.addCapture k
    gone := (s.desc m.handle).bytes / 512 }).raiseAll
      ((s.desc m.handle).filledClaim m.handle (s.desc m.handle).bytes) := by
  have total := a.writtenBytes
  have small := a.small
  have gone := a.gone
  have pages := a.pages
  have run : s.writtenBytes m = m.position * (s.desc m.handle).frameSize + (s.desc m.handle).frameSize := rfl
  rw [← total]
  exact written_passFilled (by omega) (by omega) (by omega)

theorem passed_record : ((s.written m k).passFilled m.handle).desc m.handle = s.filledRecord m k := by
  rw [a.passed, State.raiseAll_desc]
  exact State.desc_modDesc_same _ m.handle _

theorem passed_others {x : Handle} (h : x ≠ m.handle) : ((s.written m k).passFilled m.handle).desc x = s.desc x := by
  rw [a.passed, State.raiseAll_desc]
  exact State.desc_modDesc_ne _ _ h

theorem passed_stream (j : StreamNo) : ((s.written m k).passFilled m.handle).stream j = s.stream j := by
  rw [a.passed]
  rfl

theorem passed_leftPages : (((s.written m k).passFilled m.handle).desc m.handle).leftPages = [] := by
  rw [a.passed_record, leftPages_capture (d := s.filledRecord m k) a.direction rfl]
  exact List.drop_eq_nil_of_le (Nat.le_of_eq a.pages)

theorem passed_partClaim : (((s.written m k).passFilled m.handle).desc m.handle).partClaim m.handle =
    (s.desc m.handle).endClaim m.handle := by
  rw [a.passed_record, partClaim_capture (d := s.filledRecord m k) a.direction rfl]
  rfl

/-- The claims when the record has retired: the page filled, the page partly written, DONE (R44, R60, R61). -/
theorem passed_claims : ((s.written m k).passFilled m.handle).claims ++
      ((((s.written m k).passFilled m.handle).desc m.handle).partClaim m.handle ++ [Claim.done m.handle]) =
    s.claims ++ (s.desc m.handle).filledClaim m.handle (s.desc m.handle).bytes ++ (s.desc m.handle).endClaim m.handle ++
      [Claim.done m.handle] := by
  rw [a.passed_partClaim, a.passed, ← List.append_assoc]
  rfl

theorem passed_free : ((s.written m k).passFilled m.handle).freeList ++
    (((s.written m k).passFilled m.handle).desc m.handle).leftPages = s.freeList := by
  rw [a.passed_leftPages, List.append_nil, a.passed]
  rfl

theorem passed_retired : ((((s.written m k).passFilled m.handle).desc m.handle).retire
    (((s.written m k).passFilled m.handle).desc m.handle).resolvedOutcome).emptied = s.storedRecord m k := by
  have last := a.last
  have positive : 0 < (s.desc m.handle).frames := by omega
  have full : max ((s.desc m.handle).bytes / 512) (s.desc m.handle).pages.length = (s.desc m.handle).pages.length := by
    rw [a.pages]
    omega
  rw [a.passed_record, retired_by_resolution (d := s.filledRecord m k) last positive, State.storedRecord, State.filledRecord]
  dsimp only
  rw [full, last]

/-- The record retires from the head, with `q` behind it. -/
theorem retires {q : List Handle} (hq : (s.stream m.stream).queue = m.handle :: q) (hout : m.handle ∉ q)
    (he : (s.desc m.handle).eligible = true) :
    HeadRetired ((s.written m k).passFilled m.handle) (s.completeCapture m k) m.stream m.handle q := by
  refine settleAt_headRetired (by rw [a.passed_stream]; exact hq) hout ?_
  have full : decide ((s.desc m.handle).frames ≤ (s.desc m.handle).resolved + 1) = true := decide_eq_true (Nat.le_of_eq a.last.symm)
  rw [a.passed_record]
  exact (congrArg₂ and he full).trans rfl

/-- What the last position leaves, with `q` behind the record that retires. -/
theorem leaves {q : List Handle} (hq : (s.stream m.stream).queue = m.handle :: q) (hout : m.handle ∉ q)
    (he : (s.desc m.handle).eligible = true) :
    let t := s.completeCapture m k
    let done := s.claims ++ (s.desc m.handle).filledClaim m.handle (s.desc m.handle).bytes ++
      (s.desc m.handle).endClaim m.handle ++ [Claim.done m.handle]
    done <+: t.claims ∧ t.desc m.handle = s.storedRecord m k ∧ m.handle ∉ (t.stream m.stream).queue ∧
      (∀ j, j ≠ m.stream → t.stream j = s.stream j) ∧ (∀ h, h ≠ m.handle → h ∉ q → t.desc h = s.desc h) ∧
      (q = [] → t.freeList = s.freeList ∧
        ((s.stream m.stream).state ≠ .stopping →
          t.stream m.stream = { s.stream m.stream with queue := [] } ∧ t.claims = done) ∧
        ((s.stream m.stream).state = .stopping → t.stream m.stream = { s.stream m.stream with
          queue := [], state := .idle, gapOpen := false, record := { (s.stream m.stream).record with drained := true } })) := by
  have retires := a.retires (k := k) hq hout he
  have stream := a.passed_stream (k := k)
  have queue : (((s.written m k).passFilled m.handle).stream m.stream).queue = m.handle :: q := by rw [stream]; exact hq
  refine ⟨a.passed_claims ▸ retires.claims, retires.desc.trans a.passed_retired, retires.queue,
    fun j hj => (retires.frame.others j hj).trans (stream j), fun h hh hn => ?_, fun e => ?_⟩
  · have out : h ∉ (((s.written m k).passFilled m.handle).stream m.stream).queue := by
      rw [queue]
      exact List.not_mem_cons_of_ne_of_not_mem hh hn
    rw [retires.frame.descs h out, a.passed_others hh]
  · subst e
    have quiet := fun hs => retires.quiet queue hs
    have drained := fun hs => retires.drained queue hs
    rw [a.passed_free, a.passed_claims, stream] at quiet
    rw [a.passed_free, stream] at drained
    by_cases hs : (s.stream m.stream).state = .stopping
    · obtain ⟨context, pages, -⟩ := drained hs
      exact ⟨pages, fun hn => absurd hs hn, fun _ => context⟩
    · obtain ⟨context, pages, claims⟩ := quiet hs
      exact ⟨pages, fun _ => ⟨context, claims⟩, fun e => absurd e hs⟩

/-- What else the completion leaves alone. -/
theorem rest : s.completeCapture m k = { s with
    mem := (s.completeCapture m k).mem, streams := (s.completeCapture m k).streams, descs := (s.completeCapture m k).descs
    freeList := (s.completeCapture m k).freeList, claims := (s.completeCapture m k).claims } := by
  have own := (settle_frame ((s.written m k).passFilled m.handle) m.stream).rest
  rw [← completeCapture_eq] at own
  rw [completeCapture_mem]
  refine own.trans ?_
  rw [a.passed]
  rfl

end StoresLast

end

/-- Settles O39. -/
theorem captureCompletion : Obligations.CaptureCompletion := by
  intro s m k q hflight hv hk hd hq hstate hp hlt hm st d size hsize hnodup hpages hheld bytes counts written data
  have he : d.eligible = true := eligible_iff.mpr hstate
  have hbytes : m.captureBytes st.width st.channels = bytes := by
    have zeros : st.channels * st.width = size := hsize.symm
    rw [Move.captureBytes, hk, zeros]
    cases k <;> rfl
  have hlen : bytes.length = size := by
    rw [← hbytes, hsize]
    exact Move.captureBytes_length fun xs e => hheld xs (Option.some.inj (hk.symm.trans e))
  have hcounts : counts = d.counts.addCapture k := by
    cases k <;> rfl
  obtain ⟨stored, kept⟩ := writtenMem_spec (s := { s with inFlight := none }) (bytes := bytes) hm hnodup hpages (hp ▸ hlt) hbytes hlen
  have mem := completeCapture_mem (s := { s with inFlight := none }) (m := m) (k := k)
  have next : ({ s with inFlight := none } : State).nextEligible m.stream = s.nextEligible m.stream :=
    nextEligible_of_stages rfl fun x => ⟨rfl, rfl⟩
  refine ⟨_, exec_completion_capture hflight hv hk, ?_, ?_, fun hr hn => ⟨fun hle => ?_, fun p hgone hpage => ?_⟩,
    fun hr hdir hout hfull _ hsmall hgone => ?_⟩
  · rw [mem]
    exact stored
  · rw [mem]
    exact kept
  · rw [mem, hcounts]
    exact completeCapture_stays (s := { s with inFlight := none }) hq he hr (next.trans hn) hle
  · rw [mem, hcounts]
    exact completeCapture_passes (s := { s with inFlight := none }) hq he hr (next.trans hn) hgone hpage
  · intro full part
    rw [hcounts]
    have last : StoresLast { s with inFlight := none } m := ⟨hdir, hp, hr, hfull, hsmall, hgone, hpages⟩
    obtain ⟨claims, desc, queue, streams, others, alone⟩ := last.leaves (k := k) hq hout he
    exact ⟨claims, desc, queue, streams, others, last.rest, alone⟩

end Sys2Proof.Machine

/-! ## A frame event, the locking one included, around one of its streams (R38, R92, R95 to R97) -/

namespace Sys2Proof.Machine

section
variable {s : State} {i : StreamNo} {d : DomainId} {dom : Domain} {rx : RxFrame}

/-! ### What makes a frame event runs it -/

theorem modDomain_outside (d : DomainId) (f : Domain → Domain) : Outside i s (s.modDomain d f) :=
  .of_eq (by simp) (by simp) (by simp) (by simp) (by simp)

theorem lockTransition_outside (d : DomainId) : Outside i s (s.lockTransition d) :=
  ((modDomain_outside d fun dm => { dm with record := dm.record.transition dm.state dm.counter }).trans
    (mapLanesOf_outside d (f := fun _ ln => { ln with assembly := none }) fun _ _ => rfl)).trans
    (raiseOnce_outside _ (.domainEvent d))

/-- The state that the frame event of a lock finds: the good frame noted, the domain LOCKED (R92, R95, R102). -/
def State.lockedBy (s : State) (d : DomainId) (duration : Nat) : State :=
  ((s.modDomain d fun dm => { dm with lastGood := some duration }).modDomain d fun dm =>
    { dm with state := .locked, goodRun := 0, delivers := false }).lockTransition d

theorem locksAtEvent_runs {c : Instr} (hc : s.locksAtEvent c d rx) : ∃ duration,
    exec c s = .next ((s.lockedBy d duration).frameEvent d rx) := by
  obtain ⟨duration, rfl, source, measuring, run, state⟩ := hc
  refine ⟨duration, congrArg Host.Outcome.next ?_⟩
  have fits : (s.domain d).goodFrame ((s.domain d).slots * (s.domain d).width) = true := beq_self_eq_true _
  have sixteenth : (s.domain d).goodRun + 1 = Config.lockRun := congrArg (· + 1) run
  rw [if_pos source, if_pos measuring, if_pos fits, State.goodFrameClosed]
  rcases state with state | state
  · rw [state]
    exact if_pos sixteenth
  · rw [state]
    exact if_pos sixteenth

/-- What makes a frame event of a domain runs it, on a state in which nothing of a stream has changed. -/
theorem makesFrameEvent_runs {c : Instr} (hc : s.makesFrameEvent c d rx) : ∃ u, exec c s = .next (u.frameEvent d rx) ∧
    (∀ j, Outside j s u) ∧ u.inFlight = s.inFlight ∧ (u.domain d).counter = (s.domain d).counter := by
  rcases hc with hc | hc
  · obtain ⟨g, ran⟩ := takesFrameEvent_runs hc
    exact ⟨_, ran, fun j => modDomain_outside d _, by simp, by simp⟩
  · obtain ⟨duration, ran⟩ := locksAtEvent_runs hc
    refine ⟨_, ran, fun j => ((modDomain_outside d _).trans (modDomain_outside d _)).trans (lockTransition_outside d), ?_, ?_⟩
    · simp [State.lockedBy, State.lockTransition, State.breakAssemblies]
    · simp [State.lockedBy, State.lockTransition, State.breakAssemblies]

/-! ### The move in flight -/

/-- The item of another stream, or of a lane, leaves a move of stream `i` as it is. -/
theorem itemEvent_inFlight {x : Item} {m : Move} (hx : x ≠ .stream i) (hi : m.stream = i) (hm : s.inFlight = some m) :
    (State.itemEvent dom rx s x).inFlight = some m := by
  cases x with
  | stream j =>
    rcases (itemEvent_stream_frame dom rx s j).inFlight with e | ⟨p, own, e⟩
    · exact e.trans hm
    · have other : p m = false := by
        rw [Bool.eq_false_iff]
        exact fun hp => hx (congrArg Item.stream ((own m hp).symm.trans hi))
      rw [e, hm, Option.map_some, other, Bool.or_false]
  | lane l =>
    obtain ⟨-, -, -, -, -, -, -, flight, -⟩ := laneEvent_frame s l dom.width rx (dom.counter - 1)
    exact flight.trans hm

theorem foldl_itemEvent_inFlight {xs : List Item} {m : Move} (hx : Item.stream i ∉ xs) (hi : m.stream = i)
    (hm : s.inFlight = some m) : (xs.foldl (State.itemEvent dom rx) s).inFlight = some m := by
  induction xs generalizing s with
  | nil => exact hm
  | cons x xs ih =>
    obtain ⟨head, tail⟩ := not_or.mp (mt List.mem_cons.mpr hx)
    exact ih tail (itemEvent_inFlight (Ne.symm head) hi hm)

theorem sent_inFlight (s : State) (d : DomainId) : (s.sent d).inFlight = s.inFlight := by
  unfold State.sent
  split
  · exact State.mapLanesOf_inFlight s d _
  · rw [State.mapLanesOf_inFlight]
    exact State.mapLanesOf_inFlight s d _

theorem advanced_inFlight (s : State) (d : DomainId) : (s.advanced d).inFlight = s.inFlight := by
  cases d <;> rfl

/-- What the item of stream `i` does to a move of the stream is what the frame event does to it. -/
theorem frameEvent_inFlight {m m' : Move} (ho : (s.stream i).isOpen = true) (hd : (s.stream i).domain = d)
    (hm : s.inFlight = some m) (hi : m.stream = i) (hi' : m'.stream = i)
    (item : ∀ u, Outside i s u → u.inFlight = some m →
      (State.itemEvent (s.domain d) rx u (.stream i)).inFlight = some m') :
    (s.frameEvent d rx).inFlight = some m' := by
  have nodup : (s.order d).Nodup := (sortRanked_perm _ _).nodup_iff.mpr (items_nodup s d)
  obtain ⟨front, back, split⟩ := List.append_of_mem (mem_order.mpr (mem_items_stream.mpr ⟨ho, hd⟩))
  rw [split] at nodup
  obtain ⟨-, tail, apart⟩ := List.nodup_append.mp nodup
  have ahead : Item.stream i ∉ front := fun e => apart _ e _ List.mem_cons_self rfl
  rw [frameEvent_eq, advanced_inFlight, split, List.foldl_append, List.foldl_cons]
  exact foldl_itemEvent_inFlight (List.nodup_cons.mp tail).1 hi' (item _ ((sent_outside d).trans (foldl_itemEvent_outside ahead))
    (foldl_itemEvent_inFlight ahead hi ((sent_inFlight s d).trans hm)))

end

end Sys2Proof.Machine

/-! ## A play stream at a frame event (R18 to R22, R38, R73, R75) -/

namespace Sys2Proof.Machine

section
variable {s u t : State} {i : StreamNo} {n : FrameNo} {ft : FrameTime}

/-- From `s`, where the frame event with the counter at `n` begins, to `t`, where it ends, the play stream `i` sees what its own
item does to it, as the item finds it in `u`. -/
structure Played (s u t : State) (i : StreamNo) (n : FrameNo) (ft : FrameTime) : Prop where
  context : u.stream i = s.stream i
  own : ∀ h ∈ (s.stream i).queue, u.desc h = s.desc h
  stream : t.stream i = (u.playEvent i n ft).stream i
  descs : ∀ h ∈ (s.stream i).queue, t.desc h = (u.playEvent i n ft).desc h
  claims : (u.playEvent i n ft).claims ⊆ t.claims
  flight : ∀ m m', s.inFlight = some m → m.stream = i → m'.stream = i →
    (∀ v : State, v.stream i = s.stream i → (∀ h ∈ (s.stream i).queue, v.desc h = s.desc h) → v.inFlight = some m →
      (v.playEvent i n ft).inFlight = some m') → t.inFlight = some m'

theorem itemEvent_play {dom : Domain} {rx : RxFrame} (hd : (s.stream i).direction = .play) :
    State.itemEvent dom rx s (.stream i) = s.playEvent i dom.counter dom.atEvent := by
  simp only [State.itemEvent, hd]

theorem makesFrameEvent_played {c : Instr} {d : DomainId} {rx : RxFrame} (hs : s.PlacesOk) (hc : s.makesFrameEvent c d rx)
    (hd : (s.stream i).direction = .play) (hdom : (s.stream i).domain = d) (ho : (s.stream i).isOpen = true) :
    ∃ t u ft, exec c s = .next t ∧ Played s u t i (s.domain d).counter ft := by
  obtain ⟨v, ran, outside, flight, counter⟩ := makesFrameEvent_runs hc
  have context : v.stream i = s.stream i := (outside i).stream
  have own : ∀ h ∈ (s.stream i).queue, v.desc h = s.desc h := fun h hh => (outside i).own hs hh
  have apart : ∀ h ∈ (v.stream i).queue, ∀ j, j ≠ i → h ∉ (v.stream j).queue := fun h hh j hj hm => by
    rw [(outside j).stream] at hm
    rw [context] at hh
    exact hs.disjoint hj hm hh
  have stays : ∀ u, Outside i v u → u.stream i = s.stream i ∧ ∀ h ∈ (s.stream i).queue, u.desc h = s.desc h := fun u a =>
    ⟨a.stream.trans context, fun h hh => (a.descs h fun j hj => apart h (context ▸ hh) j hj).trans (own h hh)⟩
  have item : ∀ u, u.stream i = s.stream i → State.itemEvent (v.domain d) rx u (.stream i) =
      u.playEvent i (s.domain d).counter (v.domain d).atEvent := fun u e => by
    rw [← counter]
    exact itemEvent_play (by rw [e]; exact hd)
  obtain ⟨u, before, stream, descs, claims⟩ := frameEvent_around (d := d) (rx := rx) apart (by rw [context]; exact ho)
    (by rw [context]; exact hdom)
  obtain ⟨same, sameDescs⟩ := stays u before
  rw [item u same] at stream claims descs
  refine ⟨_, u, _, ran, same, sameDescs, stream, fun h hh => descs h (context ▸ hh), claims, fun m m' hm hi hi' voids => ?_⟩
  refine frameEvent_inFlight (by rw [context]; exact ho) (by rw [context]; exact hdom) (flight.trans hm) hi hi' fun w a hw => ?_
  obtain ⟨sameW, descsW⟩ := stays w a
  rw [item w sameW]
  exact voids w sameW descsW hw

/-! ### Idle, and with an entry at frame N (R73, R75) -/

theorem playEvent_idle (hm : (s.stream i).moving = false) :
    s.playEvent i n ft = s.modStream i fun st => { st with ring := st.ring.tail } :=
  if_neg (Bool.eq_false_iff.mp hm)

theorem sounds_eq (e : RingEntry) : e.sounds = decide (e ≠ .fill) := by
  cases e <;> simp [RingEntry.sounds]

/-- The entry at frame N is committed, and no gap goes on (R22, R73). -/
theorem playEvent_commits {e : RingEntry} {es : List RingEntry} (hm : (s.stream i).moving = true) (hr : (s.stream i).ring = e :: es) :
    (s.playEvent i n ft).stream i =
      { (s.stream i).gapEnded n with ring := es, sounding := (s.stream i).sounding || decide (e ≠ .fill) } ∧
    ((s.stream i).gapOpen = true → Claim.streamEvent i ∈ (s.playEvent i n ft).claims) ∧
    ∀ x, (s.playEvent i n ft).desc x = s.desc x := by
  have commits : (s.stream i).commit = { s.stream i with ring := es, sounding := (s.stream i).sounding || decide (e ≠ .fill) } := by
    rw [Stream.commit, hr, ← sounds_eq]
  have entry : 0 < (s.stream i).lead := by
    rw [Stream.lead, hr]
    exact Nat.succ_pos _
  have event : s.playEvent i n ft = (s.modStream i Stream.commit).account i .nonGap n := (if_pos hm).trans (if_pos entry)
  obtain ⟨stream, claims⟩ := account_nonGap (s := s.modStream i Stream.commit) (i := i) (f := n)
  rw [State.stream_modStream_same, commits] at stream claims
  rw [event]
  exact ⟨stream, claims, account_desc _⟩

/-! ### Lead 0 -/

theorem playEvent_lead_zero (hm : (s.stream i).moving = true) (hr : (s.stream i).ring = []) :
    s.playEvent i n ft = match s.dueHead i n with
      | some h => (s.resolveDue i h ft).account i .nonGap n
      | none => s.account i (s.idlePlayClass i n) n := by
  have empty : ¬ 0 < (s.stream i).lead := by
    rw [Stream.lead, hr]
    exact Nat.lt_irrefl 0
  exact (if_pos hm).trans ((if_neg empty).trans rfl)

theorem playEvent_due {h : Handle} (hm : (s.stream i).moving = true) (hr : (s.stream i).ring = []) (hd : s.dueHead i n = some h) :
    s.playEvent i n ft = (s.resolveDue i h ft).account i .nonGap n := by
  rw [playEvent_lead_zero hm hr, hd]

theorem playEvent_not_due (hm : (s.stream i).moving = true) (hr : (s.stream i).ring = []) (hd : s.dueHead i n = none) :
    s.playEvent i n ft = s.account i (s.idlePlayClass i n) n := by
  rw [playEvent_lead_zero hm hr, hd]

/-- The head waits for a later frame (R19, R22). -/
theorem playEvent_waits {h : Handle} {q : List Handle} {S : FrameNo} (hm : (s.stream i).moving = true) (hr : (s.stream i).ring = [])
    (hq : (s.stream i).queue = h :: q) (hw : (s.desc h).state = .waiting) (hS : (s.desc h).span = some S)
    (h1 : 1 ≤ (S - n).toNat) (h2 : (S - n).toNat < 2 ^ 31) (hn : frameOf S (s.desc h).resolved ≠ n) :
    (s.playEvent i n ft).stream i = (s.stream i).gapEnded n ∧
      ((s.stream i).gapOpen = true → Claim.streamEvent i ∈ (s.playEvent i n ft).claims) ∧
      ∀ x, (s.playEvent i n ft).desc x = s.desc x := by
  have notDue : s.dueHead i n = none := by
    rw [State.dueHead, hq]
    refine if_neg fun ⟨_, _, e⟩ => hn ?_
    rw [hS] at e
    exact Option.some.inj e
  have wait : s.idlePlayClass i n = .nonGap := by
    unfold State.idlePlayClass
    simp only [hq, hw, hS]
    exact if_pos (precedes_iff.mpr ⟨h1, h2⟩)
  rw [playEvent_not_due hm hr notDue, wait]
  obtain ⟨stream, claims⟩ := account_nonGap (s := s) (i := i) (f := n)
  exact ⟨stream, claims, account_desc _⟩

/-- There is no head, or it is LOADING still: a gap frame of a stream that has sounded (R18 to R21). -/
theorem playEvent_gaps (hm : (s.stream i).moving = true) (hr : (s.stream i).ring = [])
    (hl : ∀ h ∈ (s.stream i).queue.head?, (s.desc h).state = .loading) :
    (s.playEvent i n ft).stream i = (s.stream i).inGap n ∧
      ((s.stream i).sounding = true → (s.stream i).gapOpen = false → Claim.streamEvent i ∈ (s.playEvent i n ft).claims) ∧
      ∀ x, (s.playEvent i n ft).desc x = s.desc x := by
  obtain ⟨notDue, gap⟩ : s.dueHead i n = none ∧ s.idlePlayClass i n = .gap := by
    unfold State.dueHead State.idlePlayClass
    cases hq : (s.stream i).queue with
    | nil => exact ⟨rfl, rfl⟩
    | cons h q =>
      have loading : (s.desc h).state = .loading := hl h (by rw [hq]; rfl)
      simp [Descriptor.eligible, loading]
  rw [playEvent_not_due hm hr notDue, gap]
  obtain ⟨stream, claims⟩ := account_gap (s := s) (i := i) (f := n)
  exact ⟨stream, claims, account_desc _⟩

/-! ### The due position (R38, R73) -/

/-- Lead 0, and the first unresolved position of the head `h`, with `q` behind it, is at frame N. -/
structure DueNow (s : State) (i : StreamNo) (n : FrameNo) (h : Handle) (q : List Handle) (S : FrameNo) : Prop where
  direction : (s.stream i).direction = .play
  moving : (s.stream i).moving = true
  ring : (s.stream i).ring = []
  queue : (s.stream i).queue = h :: q
  eligible : (s.desc h).eligible = true
  span : (s.desc h).span = some S
  frame : frameOf S (s.desc h).resolved = n
  unresolved : (s.desc h).resolved < (s.desc h).frames

/-- R37: skipped when the descriptor has begun to play, late when it has not. -/
def Descriptor.dueCounts (d : Descriptor) : Counts :=
  if d.state = .active then { d.counts with skipped := d.counts.skipped + 1 } else { d.counts with late := d.counts.late + 1 }

namespace DueNow

variable {h : Handle} {q : List Handle} {S : FrameNo}

theorem congr (a : DueNow s i n h q S) (hc : u.stream i = s.stream i) (hd : u.desc h = s.desc h) : DueNow u i n h q S := by
  obtain ⟨a1, a2, a3, a4, a5, a6, a7, a8⟩ := a
  constructor <;> simpa only [hc, hd]

variable (a : DueNow s i n h q S)
include a

theorem event : s.playEvent i n ft = ((s.passedDue i h).settleAt i ft).account i .nonGap n := by
  refine playEvent_due a.moving a.ring (dueHead_of_headFrame (headFrame_eq_some_iff.mpr ?_))
  exact ⟨q, S, a.queue, a.eligible, a.unresolved, a.span, a.frame.symm⟩

omit a in
theorem passedDue_record : (s.passedDue i h).desc h = { s.desc h with
    resolved := (s.desc h).resolved + 1, counts := (s.desc h).dueCounts, gone := ((s.passedDue i h).desc h).gone } := by
  rw [passedDue_desc_same, Descriptor.resolvePlay, Descriptor.dueCounts]
  split <;> rfl

/-- The move that carries the due position becomes void. -/
theorem voids {m : Move} (hm : s.inFlight = some m) (hi : m.stream = i) (hh : m.handle = h) (hp : m.position = (s.desc h).resolved) :
    (s.playEvent i n ft).inFlight = some { m with void := true } := by
  have flight : (s.passedDue i h).inFlight = s.inFlight.map fun m => { m with
    void := m.void || (decide (m.stream = i) && decide (m.handle = h) && decide (m.position = (s.desc h).resolved)) } := rfl
  rw [a.event, (QueueFrame.account _ i _ _).inFlight, (settleAt_frame _ i _).inFlight, flight, hm, Option.map_some, hi, hh, hp]
  simp

/-- Before the last position, nothing else becomes due. -/
theorem event_middle (hr : (s.desc h).resolved + 1 < (s.desc h).frames) :
    s.playEvent i n ft = (s.passedDue i h).account i .nonGap n := by
  have record := passedDue_record (s := s) (i := i) (h := h)
  have eligible : ((s.passedDue i h).desc h).eligible = true := by
    rw [record]
    exact a.eligible
  rw [a.event, settleAt_rests (rests_of_waiting_head (by rw [passedDue_stream]; exact a.queue) eligible ((spent_iff eligible).mpr ?_)
    fun e => ?_)]
  · rw [record]
    exact hr
  · rw [passedDue_stream, a.direction] at e
    cases e

theorem spent (hr : (s.desc h).resolved + 1 = (s.desc h).frames) : ((s.passedDue i h).desc h).spent = true := by
  have full : decide ((s.desc h).frames ≤ (s.desc h).resolved + 1) = true := decide_eq_true (Nat.le_of_eq hr.symm)
  rw [passedDue_record]
  exact (congrArg₂ and a.eligible full).trans rfl

/-- At the last position the head retires. -/
theorem retires (hr : (s.desc h).resolved + 1 = (s.desc h).frames) (hout : h ∉ q) :
    HeadRetired (s.passedDue i h) ((s.passedDue i h).settleAt i ft) i h q :=
  settleAt_headRetired (by rw [passedDue_stream]; exact a.queue) hout (a.spent hr)

/-- The record of the descriptor whose last position has passed, as it retires (R45, R46). -/
theorem retired (hr : (s.desc h).resolved + 1 = (s.desc h).frames) : ∃ g,
    (((s.passedDue i h).desc h).retire ((s.passedDue i h).desc h).resolvedOutcome).emptied = { s.desc h with
      state := .retired, resolved := (s.desc h).frames, counts := { (s.desc h).dueCounts with unreached := 0 }, gone := g
      outcome := some (if (s.desc h).dueCounts.late = (s.desc h).frames then .late else .complete)
      endFrame := some (frameOf S ((s.desc h).frames - 1)) } := by
  have record := passedDue_record (s := s) (i := i) (h := h)
  generalize (s.passedDue i h).desc h = d at record ⊢
  have resolved : d.resolved = d.frames := by rw [record]; exact hr
  have positive : 0 < d.frames := by rw [record]; exact Nat.zero_lt_of_lt a.unresolved
  refine ⟨max d.gone d.pages.length, ?_⟩
  rw [retired_by_resolution resolved positive, record]
  dsimp only
  rw [a.span, hr]
  rfl

theorem resolves (hr : (s.desc h).resolved + 1 < (s.desc h).frames) :
    (s.playEvent i n ft).stream i = (s.stream i).gapEnded n ∧
      ((s.stream i).gapOpen = true → Claim.streamEvent i ∈ (s.playEvent i n ft).claims) ∧
      (s.playEvent i n ft).desc h = { s.desc h with
        resolved := (s.desc h).resolved + 1, counts := (s.desc h).dueCounts, gone := ((s.playEvent i n ft).desc h).gone } := by
  obtain ⟨stream, claims⟩ := account_nonGap (s := s.passedDue i h) (i := i) (f := n)
  rw [passedDue_stream] at stream claims
  rw [a.event_middle hr, account_desc]
  exact ⟨stream, claims, passedDue_record⟩

/-- What the last position leaves, with `q` behind the record that retires (R44 to R46). -/
theorem last (hr : (s.desc h).resolved + 1 = (s.desc h).frames) (hout : h ∉ q) :
    let t := s.playEvent i n ft
    t.desc h = { s.desc h with
      state := .retired, resolved := (s.desc h).frames, counts := { (s.desc h).dueCounts with unreached := 0 }
      gone := (t.desc h).gone
      outcome := some (if (s.desc h).dueCounts.late = (s.desc h).frames then .late else .complete)
      endFrame := some (frameOf S ((s.desc h).frames - 1)) } ∧
    h ∉ (t.stream i).queue ∧ Claim.done h ∈ t.claims ∧ (t.stream i).ring = [] ∧ (t.stream i).gapOpen = false ∧
    (q = [] → (s.stream i).state ≠ .stopping → t.stream i = { (s.stream i).gapEnded n with queue := [] }) ∧
    (q = [] → (s.stream i).state = .stopping → Claim.streamEvent i ∈ t.claims ∧ t.stream i = { s.stream i with
      queue := [], state := .idle, gapOpen := false, record := { (s.stream i).record with drained := true } }) := by
  have retires := a.retires (ft := ft) hr hout
  have queue : ((s.passedDue i h).stream i).queue = [h] ++ q := by rw [passedDue_stream]; exact a.queue
  intro t
  have event : t = _ := a.event
  obtain ⟨stream, -⟩ := account_nonGap (s := (s.passedDue i h).settleAt i ft) (i := i) (f := n)
  have kept := (QueueFrame.account ((s.passedDue i h).settleAt i ft) i .nonGap n).claims
  rw [← event] at stream kept
  have desc : t.desc h = _ := (congrArg (fun v : State => v.desc h) event).trans ((account_desc _ h).trans retires.desc)
  refine ⟨?_, ?_, ?_, ?_, ?_, fun e hs => ?_, fun e hs => ?_⟩
  · obtain ⟨g, record⟩ := a.retired hr
    rw [desc.trans record]
  · rw [stream]
    exact retires.queue
  · refine kept.subset (retires.claims.subset ?_)
    simp
  · rw [stream]
    exact retires.frame.ring.trans a.ring
  · rw [stream]
    rfl
  · subst e
    obtain ⟨rest, -, -⟩ := retires.quiet queue hs
    rw [stream, rest]
    rfl
  · subst e
    obtain ⟨rest, -, claims⟩ := retires.drained queue hs
    refine ⟨kept.subset ?_, ?_⟩
    · rw [claims]
      dsimp only
      split
      · assumption
      · simp
    · rw [stream, rest]
      rfl

end DueNow

end

/-- Settles O43. -/
theorem playStreamAtFrameEvent : Obligations.PlayStreamAtFrameEvent := by
  intro s c d rx i hplaces hevent hdir hdom hopen st N moving gapEnded
  have isOpen : (s.stream i).isOpen = true := by
    rw [Stream.isOpen]
    exact decide_eq_true hopen
  obtain ⟨t, u, ft, ran, context, own, stream, descs, claims, flight⟩ := makesFrameEvent_played hplaces hevent hdir hdom isOpen
  have toU : moving → (u.stream i).moving = true := fun hm => by
    rw [context]
    exact moving_iff.mpr hm
  have head : ∀ {h q}, (s.stream i).queue = h :: q → h ∈ (s.stream i).queue := fun e => e ▸ List.mem_cons_self
  refine ⟨t, ran, fun hidle => ?_, fun e es hm hr => ?_, fun h q S hm hr hq he hS hf hlt => ?_,
    fun h q S hm hr hq hw hS h1 h2 hn => ?_, fun hm hr hl => ?_⟩
  · have still : (u.stream i).moving = false := by
      rw [context, Stream.moving, show (s.stream i).state = .idle from hidle]
      rfl
    rw [playEvent_idle still] at stream descs
    rw [stream, State.stream_modStream_same, context]
    exact ⟨rfl, fun h hh => (descs h hh).trans (own h hh)⟩
  · obtain ⟨commits, ended, kept⟩ := playEvent_commits (n := N) (ft := ft) (toU hm) (by rw [context]; exact hr)
    rw [context] at commits ended
    exact ⟨stream.trans commits, fun g => claims (ended g), fun h hh => (descs h hh).trans ((kept h).trans (own h hh))⟩
  · have mem := head hq
    have out : h ∉ q := (List.nodup_cons.mp (show (h :: q).Nodup from hq ▸ hplaces.once i)).1
    have due : DueNow s i N h q S := ⟨hdir, moving_iff.mpr hm, hr, hq, eligible_iff.mpr he, hS, hf, hlt⟩
    have dueU := due.congr context (own h mem)
    intro counts
    refine ⟨fun m hfl hi hh hp => flight m { m with void := true } hfl hi hi fun v same sameDescs hv => ?_,
      fun hr => ?_, fun hr => ?_⟩
    · have here := sameDescs h mem
      exact (due.congr same here).voids hv hi hh (by rw [here]; exact hp)
    · obtain ⟨resolves, ended, record⟩ := dueU.resolves (ft := ft) (by rw [own h mem]; exact hr)
      rw [context] at resolves ended
      rw [own h mem, ← descs h mem] at record
      exact ⟨stream.trans resolves, fun g => claims (ended g), record⟩
    · obtain ⟨record, left, done, ring, gap, quiet, drained⟩ := dueU.last (ft := ft) (by rw [own h mem]; exact hr) out
      rw [own h mem, ← descs h mem] at record
      rw [← stream] at left ring gap
      rw [context, ← stream] at quiet drained
      exact ⟨record, left, claims done, ring, gap, fun e hs => quiet e (by rw [show (s.stream i).state = _ from hs]; decide),
        fun e hs => ⟨claims (drained e hs).1, (drained e hs).2⟩⟩
  · have mem := head hq
    have here := own h mem
    obtain ⟨waits, ended, kept⟩ := playEvent_waits (ft := ft) (toU hm) (by rw [context]; exact hr) (by rw [context]; exact hq)
      (by rw [here]; exact hw) (by rw [here]; exact hS) h1 h2 (by rw [here]; exact hn)
    rw [context] at waits ended
    exact ⟨stream.trans waits, fun g => claims (ended g), (descs h mem).trans ((kept h).trans here)⟩
  · obtain ⟨gaps, begun, kept⟩ := playEvent_gaps (n := N) (ft := ft) (toU hm) (by rw [context]; exact hr) fun h hh => by
      rw [context] at hh
      rw [own h (List.mem_of_mem_head? hh)]
      exact hl h hh
    rw [context] at gaps begun
    rw [← stream] at gaps
    refine ⟨fun hs => ⟨gaps.trans (if_pos hs), fun g => claims (begun hs g)⟩,
      fun hs => gaps.trans (if_neg (Bool.eq_false_iff.mp hs)), fun h hh => (descs h hh).trans ((kept h).trans (own h hh))⟩

end Sys2Proof.Machine

/-! ## A frame event: the domains, the lanes and everything else (R97, R98, R107, R110, R119, R120) -/

namespace Sys2Proof.Machine

/-! ### The domains -/

section
variable {s : State} {dom : Domain} {rx : RxFrame}

theorem itemEvent_domain (x : Item) (e : DomainId) : (State.itemEvent dom rx s x).domain e = s.domain e := by
  have both : (State.itemEvent dom rx s x).domA = s.domA ∧ (State.itemEvent dom rx s x).domB = s.domB := by
    cases x with
    | stream i => exact ⟨(itemEvent_stream_frame dom rx s i).domA, (itemEvent_stream_frame dom rx s i).domB⟩
    | lane l =>
      obtain ⟨-, -, -, -, -, -, -, -, -, -, domA, domB, -⟩ := laneEvent_frame s l dom.width rx (dom.counter - 1)
      exact ⟨domA, domB⟩
  cases e
  · exact both.1
  · exact both.2

theorem foldl_itemEvent_domain (xs : List Item) (e : DomainId) :
    (xs.foldl (State.itemEvent dom rx) s).domain e = s.domain e := by
  induction xs generalizing s with
  | nil => rfl
  | cons x xs ih => exact ih.trans (itemEvent_domain x e)

theorem sent_domain (s : State) (d e : DomainId) : (s.sent d).domain e = s.domain e := by
  unfold State.sent State.transmit
  split <;> simp

/-- What a frame event makes of its domain (R97): the counter one on, and the next event delivers (R98). -/
def Domain.afterEvent (dm : Domain) : Domain := { dm with counter := dm.counter + 1, delivers := true }

theorem advanced_domain (s : State) (d : DomainId) : (s.advanced d).domain d = (s.domain d).afterEvent := by
  cases d <;> rfl

@[simp] theorem frameEvent_domain (s : State) (d : DomainId) (rx : RxFrame) :
    (s.frameEvent d rx).domain d = (s.domain d).afterEvent := by
  rw [frameEvent_eq, advanced_domain, foldl_itemEvent_domain, sent_domain]

theorem frameEvent_domain_ne (s : State) {d e : DomainId} (rx : RxFrame) (h : e ≠ d) :
    (s.frameEvent d rx).domain e = s.domain e := by
  rw [frameEvent_eq, advanced_domain_ne _ h, foldl_itemEvent_domain, sent_domain]

end

/-! ### Received markers -/

/-- An assembly holds 1 to 31 bits (Table 6-1). -/
def Assembly.Ok (a : Assembly) : Prop := 1 ≤ a.count ∧ a.count ≤ 31

/-- A marker bit begins an assembly, lengthens it below 32 bits, or ends it (R119). -/
theorem stepAssembly_ok {o : Option Assembly} {f : FrameNo} {b : Bool} : ∀ a ∈ (stepAssembly o f b).1, a.Ok := by
  intro a ha
  unfold stepAssembly at ha
  dsimp only at ha
  split at ha
  · cases ha
    exact ⟨Nat.le_refl 1, (by decide : 1 ≤ 31)⟩
  · split at ha
    · cases ha
    · next a' =>
      split at ha
      · next fits =>
        split at ha
        · cases ha
        · next short =>
          cases ha
          have : f.toNat % 32 < 32 := Nat.mod_lt _ (by decide)
          constructor <;> dsimp only <;> omega
      · cases ha

/-- From `ln` to `ln'` a lane changes in its received-marker fields alone, and an assembly that changes holds 1 to 31 bits. -/
structure Lane.Remarked (ln ln' : Lane) : Prop where
  rest : ∃ a r e, ln' = { ln with assembly := a, lastReported := r, eventWord := e }
  assembly : ln'.assembly = ln.assembly ∨ ∀ a ∈ ln'.assembly, a.Ok

theorem Lane.Remarked.refl (ln : Lane) : ln.Remarked ln := ⟨⟨_, _, _, rfl⟩, .inl rfl⟩

theorem Lane.Remarked.trans {a b c : Lane} (h : a.Remarked b) (g : b.Remarked c) : a.Remarked c where
  rest := by
    obtain ⟨⟨_, _, _, rfl⟩, -⟩ := h
    obtain ⟨⟨_, _, _, rfl⟩, -⟩ := g
    exact ⟨_, _, _, rfl⟩
  assembly := g.assembly.elim (fun e => e ▸ h.assembly) .inr

section
variable {s : State} {dom : Domain} {rx : RxFrame} {l : LaneNo}

theorem laneEvent_remarks (W : Nat) (f : FrameNo) : (s.lane l).Remarked ((s.laneEvent l W rx f).lane l) := by
  unfold State.laneEvent
  dsimp only
  split
  · rw [State.lane_modLane_same]
    exact ⟨⟨_, _, _, rfl⟩, .inr stepAssembly_ok⟩
  · split
    · rw [State.lane_modLane_same]
      exact ⟨⟨_, _, _, rfl⟩, .inr stepAssembly_ok⟩
    · rw [State.raiseOnce_lane, State.lane_modLane_same, State.lane_modLane_same]
      exact ⟨⟨_, _, _, rfl⟩, .inr stepAssembly_ok⟩

/-- An item that is not the lane's leaves the lane. -/
theorem itemEvent_lane_ne {x : Item} (hx : x ≠ .lane l) : (State.itemEvent dom rx s x).lane l = s.lane l := by
  cases x with
  | stream i => simp only [State.lane, (itemEvent_stream_frame dom rx s i).lanes]
  | lane k =>
    obtain ⟨-, -, -, -, -, -, -, -, -, -, -, -, -, -, -, others⟩ := laneEvent_frame s k dom.width rx (dom.counter - 1)
    exact others l fun e => hx (congrArg Item.lane e.symm)

theorem foldl_itemEvent_lane_ne {xs : List Item} (hx : Item.lane l ∉ xs) :
    (xs.foldl (State.itemEvent dom rx) s).lane l = s.lane l := by
  induction xs generalizing s with
  | nil => rfl
  | cons x xs ih =>
    obtain ⟨head, tail⟩ := not_or.mp (mt List.mem_cons.mpr hx)
    exact (ih tail).trans (itemEvent_lane_ne (Ne.symm head))

theorem itemEvent_remarks (x : Item) : (s.lane l).Remarked ((State.itemEvent dom rx s x).lane l) := by
  by_cases hx : x = .lane l
  · rw [hx]
    exact laneEvent_remarks dom.width (dom.counter - 1)
  · rw [itemEvent_lane_ne hx]
    exact .refl _

theorem foldl_itemEvent_remarks (xs : List Item) :
    (s.lane l).Remarked ((xs.foldl (State.itemEvent dom rx) s).lane l) := by
  induction xs generalizing s with
  | nil => exact .refl _
  | cons x xs ih => exact (itemEvent_remarks x).trans ih

end

/-! ### The lanes -/

theorem mem_items_lane {s : State} {d : DomainId} {l : LaneNo} : Item.lane l ∈ s.items d ↔
    (s.domain d).delivers = true ∧ (s.lane l).domain = d ∧ (s.lane l).rxEnable = true ∧ (s.lane l).rxMarker = true ∧
      (s.lane l).gathering = true := by
  unfold State.items
  split <;> simp [*, and_assoc]

/-- Taking up the staged word changes the two marker words alone (R117). -/
theorem Lane.takeUp_eq (ln : Lane) (n : FrameNo) : ∃ st cur, ln.takeUp n = { ln with staged := st, current := cur } := by
  unfold Lane.takeUp
  split
  · split
    · exact ⟨_, _, rfl⟩
    · exact ⟨_, _, rfl⟩
  · exact ⟨_, _, rfl⟩

/-- A lane of domain `d` as the frame event's items find it: the staged word taken up and the transmit frame composed (R110,
R117), and no assembly when the event delivers nothing (R120). -/
def State.laneSent (s : State) (d : DomainId) (l : LaneNo) : Lane :=
  { (s.lane l).takeUp (s.domain d).counter with
    txFrame := s.composeFrame (s.domain d) l ((s.lane l).takeUp (s.domain d).counter)
    assembly := if (s.domain d).delivers then (s.lane l).assembly else none }

section
variable {s : State} {d : DomainId} {rx : RxFrame} {l : LaneNo}

theorem laneSent_eq (s : State) (d : DomainId) (l : LaneNo) : ∃ st cur, s.laneSent d l =
    { s.lane l with
      staged := st, current := cur, txFrame := s.composeFrame (s.domain d) l ((s.lane l).takeUp (s.domain d).counter)
      assembly := if (s.domain d).delivers then (s.lane l).assembly else none } := by
  obtain ⟨st, cur, taken⟩ := (s.lane l).takeUp_eq (s.domain d).counter
  refine ⟨st, cur, ?_⟩
  rw [State.laneSent, taken]

theorem sent_lane (s : State) (d : DomainId) (l : LaneNo) :
    (s.sent d).lane l = if (s.lane l).domain = d then s.laneSent d l else s.lane l := by
  obtain ⟨st, cur, taken⟩ := (s.lane l).takeUp_eq (s.domain d).counter
  unfold State.sent State.transmit State.laneSent
  by_cases hl : (s.lane l).domain = d
  · cases hd : (s.domain d).delivers <;> simp [hl, taken]
  · cases hd : (s.domain d).delivers <;> simp [hl]

theorem advanced_lane (s : State) (d : DomainId) (l : LaneNo) : (s.advanced d).lane l =
    if (s.lane l).domain = d then { s.lane l with gathering := (s.lane l).rxEnable } else s.lane l := by
  rw [show (s.advanced d).lane l = ((s.modDomain d fun dm => { dm with counter := dm.counter + 1, delivers := true }).mapLanesOf d
    fun _ ln => { ln with gathering := ln.rxEnable }).lane l from rfl, State.lane_mapLanesOf, State.modDomain_lane]

/-- A lane of the other domain is not concerned (R107). -/
theorem frameEvent_lane_ne (hl : (s.lane l).domain ≠ d) : (s.frameEvent d rx).lane l = s.lane l := by
  have out : Item.lane l ∉ s.order d := fun h => hl (mem_items_lane.mp (mem_order.mp h)).2.1
  have found : ((s.order d).foldl (State.itemEvent (s.domain d) rx) (s.sent d)).lane l = s.lane l := by
    rw [foldl_itemEvent_lane_ne out, sent_lane, if_neg hl]
  rw [frameEvent_eq, advanced_lane, found, if_neg hl]

/-- A lane of the event's domain: sent, its received-marker fields settled if it has an item, and gathering begun when the
receive enable is set (R107). -/
theorem frameEvent_lane (hl : (s.lane l).domain = d) : ∃ ln, (s.laneSent d l).Remarked ln ∧
    (Item.lane l ∉ s.items d → ln = s.laneSent d l) ∧
    (s.frameEvent d rx).lane l = { ln with gathering := (s.lane l).rxEnable } := by
  have sent : (s.sent d).lane l = s.laneSent d l := by rw [sent_lane, if_pos hl]
  have remarks := foldl_itemEvent_remarks (s := s.sent d) (dom := s.domain d) (rx := rx) (l := l) (s.order d)
  have alone : Item.lane l ∉ s.items d →
      ((s.order d).foldl (State.itemEvent (s.domain d) rx) (s.sent d)).lane l = s.laneSent d l := fun out => by
    rw [foldl_itemEvent_lane_ne fun h => out (mem_order.mp h), sent]
  rw [sent] at remarks
  refine ⟨_, remarks, alone, ?_⟩
  obtain ⟨_, _, made⟩ := laneSent_eq s d l
  obtain ⟨_, _, _, rest⟩ := remarks.rest
  rw [made] at rest
  rw [frameEvent_eq, advanced_lane, rest]
  exact if_pos hl

end

end Sys2Proof.Machine

/-! ## The domains' commands, written out (R89 to R96, R102, R120) -/

namespace Sys2Proof.Machine

/-! ### What they leave alone -/

/-- From `s` to `t` nothing changes but the domains, the lanes and the claim list. -/
def Timed (s t : State) : Prop :=
  t = { s with domA := t.domA, domB := t.domB, lanes := t.lanes, claims := t.claims }

namespace Timed

theorem trans {s t u : State} (a : Timed s t) (b : Timed t u) : Timed s u :=
  Eq.trans b (congrArg (fun x : State => { x with domA := u.domA, domB := u.domB, lanes := u.lanes, claims := u.claims }) a)

theorem modDomain (s : State) (d : DomainId) (f : Domain → Domain) : Timed s (s.modDomain d f) := by
  cases d <;> rfl

theorem mapLanesOf (s : State) (d : DomainId) (f : LaneNo → Lane → Lane) : Timed s (s.mapLanesOf d f) := rfl

theorem raiseOnce (s : State) (c : Claim) : Timed s (s.raiseOnce c) := by
  unfold State.raiseOnce
  split <;> rfl

theorem lockTransition (s : State) (d : DomainId) : Timed s (s.lockTransition d) :=
  ((Timed.modDomain s d _).trans (.mapLanesOf _ d _)).trans (.raiseOnce _ _)

theorem stream {s t : State} (h : Timed s t) (i : StreamNo) : t.stream i = s.stream i :=
  (congrArg (fun x : State => x.stream i) h).trans rfl

theorem desc {s t : State} (h : Timed s t) (k : Handle) : t.desc k = s.desc k :=
  (congrArg (fun x : State => x.desc k) h).trans rfl

theorem inFlight {s t : State} (h : Timed s t) : t.inFlight = s.inFlight := (congrArg State.inFlight h).trans rfl

/-- Two states that differ from one in nothing else are equal when the domains, the lanes and the claims are. -/
theorem ext {s t u : State} (a : Timed s t) (b : Timed s u) (hd : ∀ e, t.domain e = u.domain e)
    (hl : ∀ l, t.lane l = u.lane l) (hc : t.claims = u.claims) : t = u := by
  have lanes : t.lanes = u.lanes := Vector.ext fun k hk => hl ⟨k, hk⟩
  have domA : t.domA = u.domA := hd .a
  have domB : t.domB = u.domB := hd .b
  exact Eq.trans a (Eq.trans (by rw [lanes, domA, domB, hc]) (Eq.symm b))

end Timed

/-! ### Lock transitions (R93, R94, R102, R120) -/

section
variable (s : State) (d : DomainId)

theorem lockTransition_domain : (s.lockTransition d).domain d =
    { s.domain d with record := (s.domain d).record.transition (s.domain d).state (s.domain d).counter } := by
  simp [State.lockTransition, State.breakAssemblies]

theorem lockTransition_domain_ne {e : DomainId} (h : e ≠ d) : (s.lockTransition d).domain e = s.domain e := by
  simp [State.lockTransition, State.breakAssemblies, State.domain_modDomain_ne _ _ h]

theorem lockTransition_lane (l : LaneNo) : (s.lockTransition d).lane l =
    if (s.lane l).domain = d then { s.lane l with assembly := none } else s.lane l := by
  simp [State.lockTransition, State.breakAssemblies]

theorem lockTransition_claims : (s.lockTransition d).claims =
    if Claim.domainEvent d ∈ s.claims then s.claims else s.claims ++ [.domainEvent d] := by
  simp [State.lockTransition, State.breakAssemblies]

/-- The domain that a sixteenth good frame has locked, its first frame event still to come (R92, R95, R102). -/
def Domain.justLocked (dm : Domain) (lastGood : Option Nat) : Domain :=
  { dm with
    state := .locked, goodRun := 0, lastGood := lastGood, delivers := false
    record := { latest := .locked, transitions := bump dm.record.transitions, counter := dm.counter } }

theorem lockedBy_domain (duration : Nat) : (s.lockedBy d duration).domain d = (s.domain d).justLocked (some duration) := by
  rw [State.lockedBy, lockTransition_domain, State.domain_modDomain_same, State.domain_modDomain_same]
  rfl

theorem lockedBy_domain_ne {e : DomainId} (duration : Nat) (h : e ≠ d) : (s.lockedBy d duration).domain e = s.domain e := by
  rw [State.lockedBy, lockTransition_domain_ne _ _ h, State.domain_modDomain_ne _ _ h, State.domain_modDomain_ne _ _ h]

theorem lockedBy_lane (duration : Nat) (l : LaneNo) : (s.lockedBy d duration).lane l =
    if (s.lane l).domain = d then { s.lane l with assembly := none } else s.lane l := by
  rw [State.lockedBy, lockTransition_lane, State.modDomain_lane, State.modDomain_lane]

theorem lockedBy_claims (duration : Nat) : (s.lockedBy d duration).claims =
    if Claim.domainEvent d ∈ s.claims then s.claims else s.claims ++ [.domainEvent d] := by
  rw [State.lockedBy, lockTransition_claims, State.modDomain_claims, State.modDomain_claims]

/-- A lane that neither sends nor gathers, its assembly absent (R106, R111, R120). -/
def Lane.silent (ln : Lane) : Lane := { ln with assembly := none, txFrame := none, gathering := false }

theorem afterLoss_lane (measuring : Bool) (l : LaneNo) : (s.afterLoss d measuring).lane l =
    if (s.lane l).domain = d then (s.lane l).silent else s.lane l :=
  vector_get_ofFn _ l

/-- The domain that has lost its lock (R93, R94, R102). -/
def Domain.afterLoss (dm : Domain) (measuring : Bool) : Domain :=
  { dm with
    state := .lost, goodRun := 0, measuring := measuring, delivers := false
    record := dm.record.transition .lost dm.counter }

theorem afterLoss_domain (measuring : Bool) : (s.afterLoss d measuring).domain d = (s.domain d).afterLoss measuring := by
  cases d <;> rfl

theorem afterLoss_domain_ne {e : DomainId} (measuring : Bool) (h : e ≠ d) : (s.afterLoss d measuring).domain e = s.domain e := by
  cases d <;> cases e
  case a.a | b.b => exact absurd rfl h
  all_goals rfl

/-- R93, R94, R102, R120: what a loss of lock does. -/
theorem loseLock_eq (measuring : Bool) : s.loseLock d measuring = s.afterLoss d measuring := by
  have lost : Timed s (s.loseLock d measuring) := by
    unfold State.loseLock State.stopLanes
    exact ((Timed.modDomain s d _).trans (.lockTransition _ d)).trans (.mapLanesOf _ d _)
  have after : Timed s (s.afterLoss d measuring) := by
    cases d <;> rfl
  refine lost.ext after (fun e => ?_) (fun l => ?_) ?_
  · rw [State.loseLock, State.stopLanes, State.mapLanesOf_domain]
    by_cases h : e = d
    · rw [h, lockTransition_domain, State.domain_modDomain_same, afterLoss_domain]
      rfl
    · rw [lockTransition_domain_ne _ _ h, State.domain_modDomain_ne _ _ h, afterLoss_domain_ne _ _ _ h]
  · rw [State.loseLock, State.stopLanes, State.lane_mapLanesOf, lockTransition_lane, State.modDomain_lane, afterLoss_lane]
    by_cases hl : (s.lane l).domain = d <;> simp [hl, Lane.silent]
  · rw [State.loseLock, State.stopLanes, State.mapLanesOf_claims, lockTransition_claims, State.modDomain_claims]
    rfl

end

/-! ### SET DOMAIN (R90) -/

section
variable (s : State) (d : DomainId)

/-- SET DOMAIN that gives state `new` makes a lock transition of a domain in state `old` (R90). -/
abbrev lockChanges (old new : DomainState) : Prop := old ≠ new ∧ (old = .locked ∨ new = .locked)

/-- The event record of a domain after SET DOMAIN with source `src` (R90, R102). -/
def Domain.recordAfter (dm : Domain) (src : Source) : DomainRecord :=
  if lockChanges dm.state src.initialState then dm.record.transition src.initialState 0 else dm.record

theorem setDomain_domain (c : DomainConfig) : (s.setDomain d c).domain d =
    { (s.domain d).configure c with record := (s.domain d).recordAfter c.source } := by
  unfold State.setDomain Domain.recordAfter
  dsimp only
  split
  · rw [lockTransition_domain]
    simp only [State.stopLanes, State.breakAssemblies, State.mapLanesOf_domain, State.domain_modDomain_same]
    rfl
  · simp only [State.stopLanes, State.breakAssemblies, State.mapLanesOf_domain, State.domain_modDomain_same]
    rfl

theorem setDomain_domain_ne {e : DomainId} (c : DomainConfig) (h : e ≠ d) : (s.setDomain d c).domain e = s.domain e := by
  unfold State.setDomain
  dsimp only
  split
  · simp [lockTransition_domain_ne _ _ h, State.stopLanes, State.breakAssemblies, State.domain_modDomain_ne _ _ h]
  · simp [State.stopLanes, State.breakAssemblies, State.domain_modDomain_ne _ _ h]

theorem setDomain_lane (c : DomainConfig) (l : LaneNo) : (s.setDomain d c).lane l =
    if (s.lane l).domain = d then (s.lane l).silent else s.lane l := by
  unfold State.setDomain
  dsimp only
  by_cases hl : (s.lane l).domain = d <;> split <;>
    simp [lockTransition_lane, State.stopLanes, State.breakAssemblies, Lane.silent, hl]

theorem setDomain_claims (c : DomainConfig) : (s.setDomain d c).claims =
    if lockChanges (s.domain d).state c.source.initialState then
      if Claim.domainEvent d ∈ s.claims then s.claims else s.claims ++ [.domainEvent d]
    else s.claims := by
  unfold State.setDomain
  dsimp only
  split
  · rw [lockTransition_claims]
    simp [State.stopLanes, State.breakAssemblies]
  · simp [State.stopLanes, State.breakAssemblies]

end

/-- SET DOMAIN moves the domains, the lanes and the claim list alone. -/
theorem setDomain_timed (s : State) (d : DomainId) (c : DomainConfig) : Timed s (s.setDomain d c) := by
  have configured := ((Timed.modDomain s d fun dm => dm.configure c).trans (.mapLanesOf _ d fun _ ln =>
    { ln with assembly := none })).trans (.mapLanesOf _ d fun _ ln => { ln with txFrame := none, gathering := false })
  unfold State.setDomain
  dsimp only
  split
  · exact configured.trans (.lockTransition _ d)
  · exact configured

/-! ### Edges and timeouts (R91 to R95) -/

section
variable {s : State} {d : DomainId} {bits duration : Nat} {rx : RxFrame}

/-- The first edge opens a measured frame and closes none (R90, R94). -/
theorem frameClosed_opens (source : (s.domain d).source = .external) (fresh : (s.domain d).measuring = false) :
    exec (.frameClosed d bits duration rx) s = .next (s.modDomain d fun dm => { dm with measuring := true }) :=
  congrArg Host.Outcome.next ((if_pos source).trans (if_neg (Bool.eq_false_iff.mp fresh)))

/-- An edge closes a good frame (R91). -/
theorem frameClosed_good (source : (s.domain d).source = .external) (measuring : (s.domain d).measuring = true)
    (good : bits = (s.domain d).slots * (s.domain d).width) :
    exec (.frameClosed d bits duration rx) s = .next (s.goodFrameClosed d duration rx) :=
  congrArg Host.Outcome.next ((if_pos source).trans ((if_pos measuring).trans (if_pos (beq_iff_eq.mpr good))))

/-- An edge closes a bad frame (R91). -/
theorem frameClosed_bad (source : (s.domain d).source = .external) (measuring : (s.domain d).measuring = true)
    (bad : bits ≠ (s.domain d).slots * (s.domain d).width) :
    exec (.frameClosed d bits duration rx) s = .next (s.badFrameClosed d) :=
  congrArg Host.Outcome.next ((if_pos source).trans ((if_pos measuring).trans (if_neg fun fits => bad (beq_iff_eq.mp fits))))

theorem goodFrameClosed_locked (locked : (s.domain d).state = .locked) :
    s.goodFrameClosed d duration rx = (s.modDomain d fun dm => { dm with lastGood := some duration }).frameEvent d rx := by
  rw [State.goodFrameClosed, locked]

theorem goodFrameClosed_locks (seeking : (s.domain d).state = .acquiring ∨ (s.domain d).state = .lost)
    (run : (s.domain d).goodRun = 15) : s.goodFrameClosed d duration rx = (s.lockedBy d duration).frameEvent d rx := by
  have sixteenth : (s.domain d).goodRun + 1 = Config.lockRun := congrArg (· + 1) run
  rcases seeking with h | h <;> rw [State.goodFrameClosed, h] <;> exact if_pos sixteenth

theorem goodFrameClosed_counts (seeking : (s.domain d).state = .acquiring ∨ (s.domain d).state = .lost)
    (short : (s.domain d).goodRun + 1 ≠ 16) : s.goodFrameClosed d duration rx =
      s.modDomain d fun dm => { dm with goodRun := dm.goodRun + 1, lastGood := some duration } := by
  have once : (s.modDomain d fun dm => { dm with lastGood := some duration }).modDomain d
      (fun dm => { dm with goodRun := dm.goodRun + 1 }) =
      s.modDomain d fun dm => { dm with goodRun := dm.goodRun + 1, lastGood := some duration } := by
    cases d <;> rfl
  rcases seeking with h | h <;> rw [State.goodFrameClosed, h] <;> exact (if_neg short).trans once

theorem badFrameClosed_locked (locked : (s.domain d).state = .locked) : s.badFrameClosed d = s.afterLoss d true := by
  rw [State.badFrameClosed, locked]
  exact loseLock_eq s d true

theorem badFrameClosed_seeking (seeking : (s.domain d).state = .acquiring ∨ (s.domain d).state = .lost) :
    s.badFrameClosed d = s.modDomain d fun dm => { dm with goodRun := 0 } := by
  rcases seeking with h | h <;> rw [State.badFrameClosed, h]

theorem timedOut_iff {dm : Domain} {elapsed g : Nat} (h : dm.lastGood = some g) : dm.timedOut elapsed = true ↔ 2 * g ≤ elapsed := by
  rw [Domain.timedOut, h]
  exact decide_eq_true_iff

theorem not_timedOut {dm : Domain} (h : dm.lastGood = none) (elapsed : Nat) : ¬ dm.timedOut elapsed = true := by
  rw [Domain.timedOut, h]
  exact Bool.false_ne_true

/-- A timeout that has not come changes nothing (log entry 12). -/
theorem timeouts_early {elapsed : Nat} (early : ¬ (s.domain d).timedOut elapsed = true) :
    exec (.lockTimeout d elapsed) s = .next s ∧ exec (.goodRunTimeout d elapsed) s = .next s :=
  ⟨congrArg Host.Outcome.next (if_neg fun h => early h.2.2), congrArg Host.Outcome.next (if_neg fun h => early h.2)⟩

end

end Sys2Proof.Machine

/-! ## The domains and the lanes keep to chapters 5 and 6 (Tables 5-1, 5-2 and 6-1) -/

namespace Sys2Proof.Machine

/-! ### What a command leaves of them -/

/-- Both domains and the eight lanes. -/
def State.clocking (s : State) : Domain × Domain × Vector Lane 8 := (s.domA, s.domB, s.lanes)

theorem clocking_eq_iff {s t : State} :
    t.clocking = s.clocking ↔ t.domA = s.domA ∧ t.domB = s.domB ∧ t.lanes = s.lanes := by
  simp [State.clocking]

theorem domain_of_clocking {s t : State} (h : t.clocking = s.clocking) (d : DomainId) : t.domain d = s.domain d := by
  obtain ⟨domA, domB, -⟩ := clocking_eq_iff.mp h
  cases d
  · exact domA
  · exact domB

theorem lane_of_clocking {s t : State} (h : t.clocking = s.clocking) (l : LaneNo) : t.lane l = s.lane l := by
  obtain ⟨-, -, lanes⟩ := clocking_eq_iff.mp h
  rw [State.lane, lanes]
  rfl

theorem QueueFrame.clocking {i : StreamNo} {s t : State} (a : QueueFrame i s t) : t.clocking = s.clocking :=
  clocking_eq_iff.mpr ⟨a.domA, a.domB, a.lanes⟩

section
variable (s : State) (i : StreamNo)

theorem settle_clocking : (s.settle i).clocking = s.clocking := (settle_frame s i).clocking

theorem drain_clocking : (s.drain i).clocking = s.clocking := by
  unfold State.drain
  split
  · exact (QueueFrame.drainIfEmpty i _).clocking
  all_goals rfl

theorem abort_clocking : (s.abort i).clocking = s.clocking :=
  (retireAll_frame i Descriptor.abortOutcome _ (s.beforeAbort i) (by rw [beforeAbort_stream])).clocking

theorem closeStream_clocking : (s.closeStream i).clocking = s.clocking :=
  (retireAll_frame i (fun _ => .discarded) _ (s.voidStream i) rfl).clocking

theorem grantTo_clocking : (s.grantTo i).clocking = s.clocking := by
  unfold State.grantTo State.grantPlay State.grantCapture
  split <;> split <;> rfl

theorem completePlay_clocking (m : Move) : (s.completePlay m).clocking = s.clocking := by
  rw [completePlay_eq, settle_clocking, State.placed, State.resolvePlay_eq]
  rfl

theorem passFilled_clocking (h : Handle) : (s.passFilled h).clocking = s.clocking := by
  unfold State.passFilled State.passPage
  split
  · split <;> rfl
  · rfl

theorem completeCapture_clocking (m : Move) (k : EntryKind) : (s.completeCapture m k).clocking = s.clocking := by
  rw [completeCapture_eq, settle_clocking, passFilled_clocking]
  rfl

theorem acknowledge_clocking (a : BitVec 8) : (s.acknowledge a).clocking = s.clocking := by
  unfold State.acknowledge
  split <;> rfl

theorem dealRequest_clocking (seq kind : Byte) (payload : List Byte) :
    (s.dealRequest seq kind payload).1.clocking = s.clocking := by
  rcases dealRequest_cases s seq kind payload with h | ⟨h, -⟩ <;> rw [h]
  rfl

theorem endExchange_clocking (f : OutFrame) (sdi : List Byte) : (s.endExchange f sdi).clocking = s.clocking := by
  have inbound : ∀ (u : State) c fr, (u.settleInbound c fr).1.clocking = u.clocking := fun u c fr => by
    cases fr with
    | noFrame => rfl
    | bad => rfl
    | good seq ack kind payload => exact (dealRequest_clocking _ _ _ _).trans (acknowledge_clocking u ack)
  exact inbound _ (carriedBy f sdi) (judge sdi)

theorem raiseOnce_clocking (c : Claim) : (s.raiseOnce c).clocking = s.clocking := by
  simp [clocking_eq_iff]

end

/-! ### What a command does to them -/

/-- What command `c` does to the domains and the lanes, from `s` to `t`: a full reset, a configuration, a marker word staged, a
claim's record handed on, an edge, a timeout or a frame event, or nothing. -/
inductive Retimed : Instr → State → State → Prop
  | still {c s} : Retimed c s s
  | reset {c s cause lv csnLow} : (c = .resetFull ∨ ∃ lv b, c = .pinReset lv b) → Retimed c s (s.fullReset cause lv csnLow)
  | configures {s p d cfg} : State.checkSetDomain s p = .ok (d, cfg) → Retimed .setDomain s (s.setDomain d cfg)
  | wires {s p l cfg} : State.checkSetLane s p = .ok (l, cfg) → Retimed .setLane s (s.modLane l fun ln => ln.configure cfg)
  | stages {s : State} {l w} : Retimed .setMarker s (s.modLane l fun ln => { ln with staged := some w })
  | handsOn {s : State} {c} : Retimed .conversion s (s.handOn c)
  | opens {s : State} {d bits duration rx} : (s.domain d).source = .external →
      Retimed (.frameClosed d bits duration rx) s (s.modDomain d fun dm => { dm with measuring := true })
  | advances {s : State} {d bits duration rx} : (s.domain d).source = .external → (s.domain d).state = .locked →
      Retimed (.frameClosed d bits duration rx) s
        ((s.modDomain d fun dm => { dm with lastGood := some duration }).frameEvent d rx)
  | counts {s : State} {d bits duration rx} : (s.domain d).source = .external →
      (s.domain d).state = .acquiring ∨ (s.domain d).state = .lost → (s.domain d).goodRun + 1 ≠ 16 →
      Retimed (.frameClosed d bits duration rx) s
        (s.modDomain d fun dm => { dm with goodRun := dm.goodRun + 1, lastGood := some duration })
  | locks {s : State} {d bits duration rx} : (s.domain d).source = .external → (s.domain d).measuring = true →
      Retimed (.frameClosed d bits duration rx) s ((s.lockedBy d duration).frameEvent d rx)
  | loses {c s d measuring} : (s.domain d).source = .external → Retimed c s (s.afterLoss d measuring)
  | ends {s : State} {d bits duration rx} :
      Retimed (.frameClosed d bits duration rx) s (s.modDomain d fun dm => { dm with goodRun := 0 })
  | lapses {s : State} {d elapsed} : (s.domain d).state = .acquiring ∨ (s.domain d).state = .lost →
      Retimed (.goodRunTimeout d elapsed) s (s.modDomain d fun dm => { dm with goodRun := 0, lastGood := none })
  | ticks {s : State} {d rx} : (s.domain d).source = .internal → Retimed (.generatorBoundary d rx) s (s.frameEvent d rx)

/-- Up to what is neither a domain nor a lane, command `c` leads from `s` to `t` as `Retimed` says. -/
def Retimes (c : Instr) (s t : State) : Prop :=
  ∃ u v, u.clocking = s.clocking ∧ Retimed c u v ∧ t.clocking = v.clocking

section
variable {s t : State} {c : Instr}

theorem Retimes.of_eq (h : t.clocking = s.clocking) : Retimes c s t := ⟨s, s, rfl, .still, h⟩

theorem Retimed.retimes (h : Retimed c s t) : Retimes c s t := ⟨s, t, rfl, h, rfl⟩

/-- A request taken or refused for its length moves nothing: what its act does counts. -/
theorem takeKind_retimes {k : Kind} {sel : Request → Bool} {act : Request → State → State}
    (hact : ∀ r u, Retimes c u (act r u)) : Retimes c s (s.takeKind k sel act) := by
  rcases State.takeKind_cases s k sel act with h | ⟨r, rest, -, -, -, ⟨-, h⟩ | ⟨-, h⟩⟩ <;> rw [h]
  · exact .of_eq rfl
  · exact .of_eq rfl
  · exact hact r (s.modPort fun p => { p with inbound := rest })

theorem takeKind_answer_retimes {α : Type} {k : Kind} {sel : Request → Bool} {check : State → List Byte → Except Status α}
    {act : Request → State → α → State} (hact : ∀ r u x, check u r.payload = .ok x → Retimes c u (act r u x)) :
    Retimes c s (s.takeKind k sel fun r u => u.answer k r (check u r.payload) (act r u)) :=
  takeKind_retimes fun r u => by
    cases hc : check u r.payload with
    | error st => exact .of_eq rfl
    | ok x => exact hact r u x hc

theorem goodFrameClosed_retimes {d : DomainId} {bits duration : Nat} {rx : RxFrame} (source : (s.domain d).source = .external)
    (measuring : (s.domain d).measuring = true) :
    Retimed (.frameClosed d bits duration rx) s (s.goodFrameClosed d duration rx) := by
  have run : (s.domain d).state = .acquiring ∨ (s.domain d).state = .lost →
      Retimed (.frameClosed d bits duration rx) s (s.goodFrameClosed d duration rx) := fun seeking => by
    by_cases sixteenth : (s.domain d).goodRun = 15
    · rw [goodFrameClosed_locks seeking sixteenth]
      exact .locks source measuring
    · have short : (s.domain d).goodRun + 1 ≠ 16 := fun e => sixteenth (Nat.succ.inj e)
      rw [goodFrameClosed_counts seeking short]
      exact .counts source seeking short
  cases state : (s.domain d).state with
  | locked =>
    rw [goodFrameClosed_locked state]
    exact .advances source state
  | off =>
    rw [State.goodFrameClosed, state]
    exact .still
  | acquiring => exact run (.inl state)
  | lost => exact run (.inr state)

theorem badFrameClosed_retimes {d : DomainId} {bits duration : Nat} {rx : RxFrame} (source : (s.domain d).source = .external) :
    Retimed (.frameClosed d bits duration rx) s (s.badFrameClosed d) := by
  cases state : (s.domain d).state with
  | locked =>
    rw [badFrameClosed_locked state]
    exact .loses source
  | off =>
    rw [State.badFrameClosed, state]
    exact .still
  | acquiring =>
    rw [badFrameClosed_seeking (.inl state)]
    exact .ends
  | lost =>
    rw [badFrameClosed_seeking (.inr state)]
    exact .ends

/-- What each command does to the domains and the lanes (chapters 5 and 6). -/
theorem exec_retimes (h : exec c s = .next t) : Retimes c s t := by
  cases c with
  | pinReset ovr csnLow => cases h; exact (Retimed.reset (.inr ⟨_, _, rfl⟩)).retimes
  | csnFalling => cases h; split <;> exact .of_eq rfl
  | endOfExchange sdi =>
    cases h
    split
    · split
      · exact .of_eq (endExchange_clocking s _ sdi)
      · exact .of_eq rfl
    · exact .of_eq rfl
  | unknownKind =>
    cases h
    unfold State.takeHead
    split
    · exact .of_eq rfl
    · split <;> exact .of_eq rfl
  | identify => cases h; exact takeKind_retimes fun _ _ => .of_eq rfl
  | status => cases h; exact takeKind_retimes fun _ _ => .of_eq rfl
  | resetFull => cases h; exact takeKind_retimes fun _ _ => (Retimed.reset (.inl rfl)).retimes
  | resetStreams => cases h; exact takeKind_retimes fun _ _ => by split <;> exact .of_eq rfl
  | setDomain =>
    cases h
    exact takeKind_answer_retimes fun _ u _ passed => ⟨u, _, rfl, .configures passed, rfl⟩
  | queryTime => cases h; exact takeKind_answer_retimes (check := fun _ => checkQueryTime) fun _ _ _ _ => .of_eq rfl
  | setLane =>
    cases h
    exact takeKind_answer_retimes fun _ u _ passed => ⟨u, _, rfl, .wires passed, rfl⟩
  | setMarker =>
    cases h
    exact takeKind_answer_retimes (check := fun _ => checkSetMarker) fun _ u _ _ => ⟨u, _, rfl, .stages, rfl⟩
  | openStream => cases h; exact takeKind_answer_retimes fun _ _ _ _ => .of_eq rfl
  | startStream => cases h; exact takeKind_answer_retimes fun _ _ i _ => .of_eq (settle_clocking _ i)
  | stopDrain => cases h; exact takeKind_answer_retimes fun _ u i _ => .of_eq (drain_clocking u i)
  | stopAbort => cases h; exact takeKind_answer_retimes fun _ u i _ => .of_eq (abort_clocking u i)
  | closeStream => cases h; exact takeKind_answer_retimes fun _ u i _ => .of_eq (closeStream_clocking u i)
  | queryStream => cases h; exact takeKind_answer_retimes fun _ _ _ _ => .of_eq rfl
  | submit => cases h; exact takeKind_answer_retimes fun _ _ x _ => .of_eq (settle_clocking _ x.1)
  | put => cases h; exact takeKind_answer_retimes fun _ _ x _ => .of_eq (settle_clocking _ x.1)
  | clearOverride => cases h; exact takeKind_retimes fun _ _ => by split <;> exact .of_eq rfl
  | setArbitration => cases h; exact takeKind_answer_retimes (check := fun _ => checkSetArbitration) fun _ _ _ _ => .of_eq rfl
  | grant =>
    cases h
    split
    · exact .of_eq rfl
    · split
      · exact .of_eq rfl
      · exact .of_eq (grantTo_clocking s _)
  | completion =>
    cases h
    split
    · exact .of_eq rfl
    · next m _ =>
      dsimp only
      split
      · exact .of_eq rfl
      · split
        · exact .of_eq (completePlay_clocking { s with inFlight := none } m)
        · exact .of_eq (completeCapture_clocking { s with inFlight := none } m _)
  | frameClosed d bits duration rx =>
    cases h
    split
    · next external =>
      split
      · next measuring =>
        split
        · exact (goodFrameClosed_retimes external measuring).retimes
        · exact (badFrameClosed_retimes external).retimes
      · exact (Retimed.opens external).retimes
    · exact .of_eq rfl
  | lockTimeout d elapsed =>
    cases h
    split
    · next late =>
      obtain ⟨source, -⟩ := late
      rw [loseLock_eq]
      exact (Retimed.loses source).retimes
    · exact .of_eq rfl
  | goodRunTimeout d elapsed =>
    cases h
    split
    · next late => exact (Retimed.lapses late.1).retimes
    · exact .of_eq rfl
  | generatorBoundary d rx =>
    cases h
    split
    · next internal => exact (Retimed.ticks internal).retimes
    · exact .of_eq rfl
  | assertionEdge =>
    cases h
    split
    · exact .of_eq rfl
    · exact .of_eq (raiseOnce_clocking _ _)
  | deassertionEdge =>
    cases h
    split
    · exact .of_eq rfl
    · exact .of_eq (raiseOnce_clocking _ _)
  | conversion =>
    cases h
    split
    · exact .of_eq rfl
    · next head rest _ =>
      split
      · exact ⟨{ s with claims := rest }, _, rfl, .handsOn, rfl⟩
      · exact .of_eq rfl

end

end Sys2Proof.Machine

/-! ## Every step keeps the domains and the lanes -/

namespace Sys2Proof.Machine

/-! ### What SET DOMAIN has checked (R89) -/

section
variable {s : State} {d : DomainId}

/-- The fields of a SET DOMAIN that passes are in range, and the lanes of the domain have markers on 32-bit slots alone (R89). -/
theorem checkSetDomain_fields {p : List Byte} {c : DomainConfig} (h : s.checkSetDomain p = .ok (d, c)) :
    (1 ≤ c.divider ∧ c.divider ≤ 64) ∧ c.slots ∈ [2, 4, 8] ∧ c.width ∈ [16, 24, 32] ∧
      (s.domainMarkers d = true → c.width = 32) := by
  unfold State.checkSetDomain at h
  split at h
  · cases h
  · next d' c' read =>
    split at h
    · cases h
    · next passed =>
      cases h
      unfold readSetDomain at read
      split at read
      · dsimp only at read
        split at read
        · next range =>
          cases read
          obtain ⟨low, high, slots, width⟩ := range
          refine ⟨⟨low, high⟩, slots, width, fun markers => ?_⟩
          simpa [markers] using firstFailure_eq_none.mp passed _ (List.mem_cons_of_mem _ List.mem_cons_self)
        · cases read
      · cases read

end

/-! ### The domain records -/

theorem domainsOk_iff {s : State} : s.DomainsOk ↔ ∀ d, (s.domain d).Ok :=
  ⟨fun h d => by
    cases d
    · exact h.1
    · exact h.2, fun h => ⟨h .a, h .b⟩⟩

/-- A change of one domain record. -/
theorem State.DomainsOk.change {s t : State} (hs : s.DomainsOk) (d : DomainId) (ht : (t.domain d).Ok)
    (others : ∀ e, e ≠ d → t.domain e = s.domain e) : t.DomainsOk :=
  domainsOk_iff.mpr fun e => by
    by_cases h : e = d
    · rw [h]
      exact ht
    · rw [others e h]
      exact domainsOk_iff.mp hs e

namespace Domain.Ok
variable {dm : Domain}

/-- Table 5-2: an INTERNAL domain is LOCKED. -/
theorem locked_of_internal (h : dm.Ok) (hs : dm.source = .internal) : dm.state = .locked := by
  have legal := h.legal
  cases hst : dm.state <;> simp [Domain.legal, hs, hst] at legal
  rfl

/-- Table 5-2: ACQUIRING and LOST are states of an EXTERNAL domain. -/
theorem external_of_seeking (h : dm.Ok) (hst : dm.state = .acquiring ∨ dm.state = .lost) : dm.source = .external := by
  have legal := h.legal
  rcases hst with hst | hst <;> cases hs : dm.source <;> simp [Domain.legal, hs, hst] at legal <;> rfl

theorem legal_external {st : DomainState} {dm : Domain} (hs : dm.source = .external) (hst : dm.state = st) (on : st ≠ .off) :
    dm.legal = true := by
  cases st
  case off => exact absurd rfl on
  all_goals simp [Domain.legal, hs, hst]

theorem afterReset : Domain.afterReset.Ok where
  legal := rfl
  divider := by decide
  slots := by decide
  width := by decide
  goodRun := ⟨by decide, fun h => absurd rfl h⟩
  measured _ := ⟨rfl, rfl⟩
  timed h := by cases h
  delivers h := by cases h
  transitions := Nat.zero_le _
  latest := Iff.rfl

/-- A frame event of a LOCKED domain (R97). -/
theorem afterEvent (h : dm.Ok) (locked : dm.state = .locked) : dm.afterEvent.Ok :=
  { h with delivers := fun _ => locked }

/-- An edge opens a measured frame (R90, R91, R94). -/
theorem opened (h : dm.Ok) (hs : dm.source = .external) : ({ dm with measuring := true } : Domain).Ok :=
  { h with
    measured := fun e => absurd hs e
    timed := fun _ locked => ⟨(h.timed hs locked).1, rfl⟩ }

/-- A frame of an EXTERNAL domain is timed (R91). -/
theorem durationNoted (h : dm.Ok) (hs : dm.source = .external) (duration : Nat) :
    ({ dm with lastGood := some duration } : Domain).Ok :=
  { h with
    measured := fun e => absurd hs e
    timed := fun _ locked => ⟨rfl, (h.timed hs locked).2⟩ }

/-- A good frame short of the sixteenth (R92, R95). -/
theorem counted (h : dm.Ok) (hs : dm.source = .external) (hst : dm.state = .acquiring ∨ dm.state = .lost)
    (short : dm.goodRun + 1 ≠ 16) (duration : Nat) :
    ({ dm with goodRun := dm.goodRun + 1, lastGood := some duration } : Domain).Ok :=
  { h.durationNoted hs duration with
    goodRun := ⟨by
      have := h.goodRun.1
      dsimp only
      omega, fun _ => hst⟩ }

/-- The good run returns to 0 (R92). -/
theorem runEnded (h : dm.Ok) : ({ dm with goodRun := 0 } : Domain).Ok :=
  { h with goodRun := ⟨(by decide : 0 < 16), fun e => absurd rfl e⟩ }

/-- A good run that times out leaves no last good duration (R92, R95). -/
theorem lapsed (h : dm.Ok) (hst : dm.state = .acquiring ∨ dm.state = .lost) :
    ({ dm with goodRun := 0, lastGood := none } : Domain).Ok :=
  { h.runEnded with
    measured := fun e => absurd (h.external_of_seeking hst) e
    timed := fun _ locked => by
      have locked : dm.state = .locked := locked
      rw [locked] at hst
      rcases hst with e | e <;> cases e }

/-- The sixteenth good frame (R92, R95, R102). -/
theorem justLocked (h : dm.Ok) (hs : dm.source = .external) (measuring : dm.measuring = true) (duration : Nat) :
    (dm.justLocked (some duration)).Ok :=
  { h with
    legal := legal_external (st := .locked) hs rfl (by decide)
    goodRun := ⟨(by decide : 0 < 16), fun e => absurd rfl e⟩
    measured := fun e => absurd hs e
    timed := fun _ _ => ⟨rfl, measuring⟩
    delivers := fun e => by cases e
    transitions := bump_le _
    latest := ⟨fun _ => rfl, fun _ => rfl⟩ }

/-- A loss of lock (R93, R94, R102). -/
theorem afterLoss (h : dm.Ok) (hs : dm.source = .external) (measuring : Bool) : (dm.afterLoss measuring).Ok :=
  { h with
    legal := legal_external (st := .lost) hs rfl (by decide)
    goodRun := ⟨(by decide : 0 < 16), fun e => absurd rfl e⟩
    measured := fun e => absurd hs e
    timed := fun _ e => by cases e
    delivers := fun e => by cases e
    transitions := bump_le _
    latest := ⟨fun e => (by cases e), fun e => (by cases e)⟩ }

/-- A DOMAIN EVENT claim hands on its record (R103, R142). -/
theorem handedOn (h : dm.Ok) : ({ dm with record := { dm.record with transitions := 0 } } : Domain).Ok :=
  { h with transitions := Nat.zero_le _ }

/-- SET DOMAIN, with the record it leaves (R90, R102). -/
theorem configure (c : DomainConfig) (hd : 1 ≤ c.divider ∧ c.divider ≤ 64) (hn : c.slots ∈ [2, 4, 8])
    (hw : c.width ∈ [16, 24, 32]) {r : DomainRecord} (transitions : r.transitions ≤ 65535)
    (latest : r.latest = .locked ↔ c.source.initialState = .locked) :
    ({ dm.configure c with record := r } : Domain).Ok where
  legal := by cases hs : c.source <;> simp [Domain.configure, Domain.legal, hs, Source.initialState]
  divider := hd
  slots := hn
  width := hw
  goodRun := ⟨(by decide : 0 < 16), fun e => absurd rfl e⟩
  measured _ := ⟨rfl, rfl⟩
  timed hs locked := by
    have hs : c.source = .external := hs
    have locked : c.source.initialState = .locked := locked
    rw [hs] at locked
    cases locked
  delivers e := by cases e
  transitions := transitions
  latest := latest

end Domain.Ok

/-- The record follows the lock through SET DOMAIN, lock transition or not (R102). -/
theorem Domain.Ok.recordAfter {dm : Domain} (h : dm.Ok) (src : Source) :
    (dm.recordAfter src).transitions ≤ 65535 ∧ ((dm.recordAfter src).latest = .locked ↔ src.initialState = .locked) := by
  unfold Domain.recordAfter
  split
  · exact ⟨bump_le _, Iff.rfl⟩
  · next stays =>
    refine ⟨h.transitions, h.latest.trans ?_⟩
    by_cases e : dm.state = src.initialState
    · rw [e]
    · exact ⟨fun locked => absurd ⟨e, .inl locked⟩ stays, fun locked => absurd ⟨e, .inr locked⟩ stays⟩

theorem setDomain_domainsOk {s : State} {d : DomainId} {c : DomainConfig} {p : List Byte} (hs : s.DomainsOk)
    (passed : s.checkSetDomain p = .ok (d, c)) : (s.setDomain d c).DomainsOk := by
  obtain ⟨divider, slots, width, -⟩ := checkSetDomain_fields passed
  obtain ⟨transitions, latest⟩ := (domainsOk_iff.mp hs d).recordAfter c.source
  refine hs.change d ?_ fun e => setDomain_domain_ne s d c
  rw [setDomain_domain]
  exact .configure c divider slots width transitions latest

/-- A DOMAIN EVENT claim alone hands on a domain's record. -/
theorem handOn_domain (s : State) (c : Claim) (e : DomainId) : (s.handOn c).domain e =
    if c = .domainEvent e then { s.domain e with record := { (s.domain e).record with transitions := 0 } } else s.domain e := by
  cases c with
  | domainEvent d =>
    by_cases h : e = d
    · subst h
      simp [State.handOn]
    · simp [State.handOn, State.domain_modDomain_ne _ _ h, Ne.symm h]
  | overrideEvent => cases e <;> rfl
  | _ => simp [State.handOn]

theorem Retimed.domainsOk {c : Instr} {s t : State} (h : Retimed c s t) (hs : s.DomainsOk) : t.DomainsOk := by
  have written : ∀ {u : State} (d : DomainId) {f : Domain → Domain}, u.DomainsOk → (f (u.domain d)).Ok →
      (u.modDomain d f).DomainsOk := fun d _ hu hf =>
    hu.change d (by rw [State.domain_modDomain_same]; exact hf) fun e => State.domain_modDomain_ne _ _
  have event : ∀ {u : State} (d : DomainId) rx, u.DomainsOk → (u.domain d).state = .locked → (u.frameEvent d rx).DomainsOk :=
    fun d rx hu locked => hu.change d (by rw [frameEvent_domain]; exact (domainsOk_iff.mp hu d).afterEvent locked)
      fun e => frameEvent_domain_ne _ rx
  have ok := domainsOk_iff.mp hs
  cases h with
  | still => exact hs
  | reset _ => exact ⟨.afterReset, .afterReset⟩
  | configures passed => exact setDomain_domainsOk hs passed
  | wires _ => exact hs
  | stages => exact hs
  | handsOn =>
    refine domainsOk_iff.mpr fun d => ?_
    rw [handOn_domain]
    split
    · exact (ok d).handedOn
    · exact ok d
  | opens external => exact written _ hs ((ok _).opened external)
  | @advances _ d _ duration rx external locked =>
    refine event d rx (written d hs ((ok d).durationNoted external duration)) ?_
    rw [State.domain_modDomain_same]
    exact locked
  | counts external seeking short => exact written _ hs ((ok _).counted external seeking short _)
  | @locks _ d _ duration rx external measuring =>
    have locked := lockedBy_domain s d duration
    refine event d rx (hs.change d (locked ▸ (ok d).justLocked external measuring duration) fun e => lockedBy_domain_ne s d duration) ?_
    rw [locked]
    rfl
  | @loses _ _ d measuring external =>
    exact hs.change d (by rw [afterLoss_domain]; exact (ok d).afterLoss external measuring) fun e => afterLoss_domain_ne s d measuring
  | ends => exact written _ hs (ok _).runEnded
  | lapses seeking => exact written _ hs ((ok _).lapsed seeking)
  | @ticks _ d rx internal => exact event d rx hs ((ok d).locked_of_internal internal)

/-! ### The lanes -/

theorem setMarkerBit_length (b : Bool) (xs : List Word32) : (setMarkerBit b xs).length = xs.length := by
  cases xs <;> rfl

theorem slotNumbers_length {n : Nat} (h : n ∈ [2, 4, 8]) : (slotNumbers n).length = n := by
  simp only [List.mem_cons, List.not_mem_nil, or_false] at h
  rcases h with rfl | rfl | rfl <;> decide

/-- A transmit frame is composed of an enabled lane, slot by slot (R110). -/
theorem composeFrame_of_mem {s : State} {dom : Domain} {l : LaneNo} {ln : Lane} {f : List Word32}
    (h : f ∈ s.composeFrame dom l ln) (slots : dom.slots ∈ [2, 4, 8]) : ln.txEnable = true ∧ f.length = dom.slots := by
  unfold State.composeFrame at h
  dsimp only at h
  split at h
  · next enabled =>
    refine ⟨enabled, ?_⟩
    cases h
    split <;> simp [setMarkerBit_length, slotNumbers_length slots]
  · cases h

namespace Lane.Ok
variable {ln : Lane} {dm dm' : Domain}

/-- A domain that keeps its frame's shape and stays LOCKED if it was. -/
theorem domain (h : ln.Ok dm) (slots : dm'.slots = dm.slots) (width : dm'.width = dm.width)
    (locked : dm.state = .locked → dm'.state = .locked) : ln.Ok dm' where
  marker e := width ▸ h.marker e
  sending f hf := by
    obtain ⟨enabled, was, length⟩ := h.sending f hf
    exact ⟨enabled, locked was, slots ▸ length⟩
  gathering e := ⟨(h.gathering e).1, locked (h.gathering e).2⟩
  assembly := h.assembly

theorem silent (marker : (ln.txMarker || ln.rxMarker) = true → dm.width = 32) : ln.silent.Ok dm where
  marker := marker
  sending f hf := by cases hf
  gathering e := by cases e
  assembly a ha := by cases ha

theorem unassembled (h : ln.Ok dm) : ({ ln with assembly := none } : Lane).Ok dm :=
  { h with assembly := fun a ha => by cases ha }

end Lane.Ok

section
variable {s t : State} {d : DomainId}

/-- The domains stay as they are to their lanes, or better, and the lanes as they were, or without their assemblies. -/
theorem lanesOk_of_domains (hs : s.LanesOk)
    (hd : ∀ e, (t.domain e).slots = (s.domain e).slots ∧ (t.domain e).width = (s.domain e).width ∧
      ((s.domain e).state = .locked → (t.domain e).state = .locked))
    (hl : ∀ l, t.lane l = s.lane l ∨ t.lane l = { s.lane l with assembly := none }) : t.LanesOk := fun l => by
  obtain ⟨slots, width, locked⟩ := hd (s.lane l).domain
  have kept := (hs l).domain slots width locked
  rcases hl l with e | e <;> rw [e]
  · exact kept
  · exact kept.unassembled

/-- One domain record changes. -/
theorem lanesOk_modDomain (hs : s.LanesOk) {f : Domain → Domain} (slots : (f (s.domain d)).slots = (s.domain d).slots)
    (width : (f (s.domain d)).width = (s.domain d).width)
    (locked : (s.domain d).state = .locked → (f (s.domain d)).state = .locked) : (s.modDomain d f).LanesOk := by
  refine lanesOk_of_domains hs (fun e => ?_) fun l => .inl (by rw [State.modDomain_lane])
  by_cases h : e = d
  · subst h
    rw [State.domain_modDomain_same]
    exact ⟨slots, width, locked⟩
  · rw [State.domain_modDomain_ne _ _ h]
    exact ⟨rfl, rfl, id⟩

/-- The lanes of one domain fall silent (R90, R93, R94). -/
theorem lanesOk_of_silenced (hs : s.LanesOk) (hl : ∀ l, t.lane l = if (s.lane l).domain = d then (s.lane l).silent else s.lane l)
    (hd : ∀ e, e ≠ d → t.domain e = s.domain e)
    (marker : ∀ l, (s.lane l).domain = d → ((s.lane l).txMarker || (s.lane l).rxMarker) = true → (t.domain d).width = 32) :
    t.LanesOk := fun l => by
  rw [hl]
  split
  · next here =>
    refine .silent fun e => ?_
    rw [show (s.lane l).silent.domain = d from here]
    exact marker l here e
  · next there =>
    rw [hd _ there]
    exact hs l

/-- One lane changes. -/
theorem lanesOk_modLane (hs : s.LanesOk) {l : LaneNo} {f : Lane → Lane} (hf : (f (s.lane l)).Ok (s.domain (f (s.lane l)).domain)) :
    (s.modLane l f).LanesOk := fun k => by
  rw [State.modLane_domain, State.lane_modLane]
  split
  · exact hf
  · exact hs k

/-- A frame event of a LOCKED domain (R106, R107, R110, R119). -/
theorem frameEvent_lanesOk (hs : s.LanesOk) (rx : RxFrame) (hd : (s.domain d).Ok) (locked : (s.domain d).state = .locked) :
    (s.frameEvent d rx).LanesOk := fun l => by
  by_cases hl : (s.lane l).domain = d
  · obtain ⟨ln, remarks, alone, lane⟩ := frameEvent_lane (rx := rx) hl
    obtain ⟨st, cur, sent⟩ := laneSent_eq s d l
    obtain ⟨a, r, e, rest⟩ := remarks.rest
    have enabled : ((s.lane l).takeUp (s.domain d).counter).txEnable = (s.lane l).txEnable := by
      obtain ⟨_, _, taken⟩ := (s.lane l).takeUp_eq (s.domain d).counter
      rw [taken]
    have found : ∀ x ∈ (s.laneSent d l).assembly, x.Ok ∧ (s.lane l).rxEnable = true ∧ (s.lane l).rxMarker = true := fun x hx => by
      rw [sent] at hx
      dsimp only at hx
      split at hx
      · obtain ⟨low, high, rx, marker⟩ := (hs l).assembly x hx
        exact ⟨⟨low, high⟩, rx, marker⟩
      · cases hx
    have assembled : ∀ x ∈ ln.assembly, x.Ok ∧ (s.lane l).rxEnable = true ∧ (s.lane l).rxMarker = true := fun x hx => by
      by_cases item : Item.lane l ∈ s.items d
      · obtain ⟨-, -, rx, marker, -⟩ := mem_items_lane.mp item
        rcases remarks.assembly with same | small
        · exact ⟨(found x (same ▸ hx)).1, rx, marker⟩
        · exact ⟨small x hx, rx, marker⟩
      · exact found x (alone item ▸ hx)
    rw [rest] at assembled
    rw [lane, rest, sent]
    dsimp only
    rw [hl, frameEvent_domain]
    refine ⟨fun marked => (hl ▸ hs l).marker marked, fun f hf => ?_, fun gathers => ⟨gathers, locked⟩, fun x hx => ?_⟩
    · obtain ⟨on, length⟩ := composeFrame_of_mem hf hd.slots
      exact ⟨enabled ▸ on, locked, length⟩
    · obtain ⟨⟨low, high⟩, rx, marker⟩ := assembled x hx
      exact ⟨low, high, rx, marker⟩
  · rw [frameEvent_lane_ne hl, frameEvent_domain_ne _ _ hl]
    exact hs l

theorem checkSetLane_markers {p : List Byte} {l : LaneNo} {c : LaneConfig} (h : s.checkSetLane p = .ok (l, c)) :
    (c.txMarker || c.rxMarker) = true → (s.domain c.domain).width = 32 := by
  intro marked
  unfold State.checkSetLane at h
  split at h
  · cases h
  · split at h
    · cases h
    · next passed =>
      cases h
      simpa [marked] using firstFailure_eq_none.mp passed _ (List.mem_cons_of_mem _ List.mem_cons_self)

theorem domainMarkers_of_lane {l : LaneNo} (hl : (s.lane l).domain = d)
    (marked : ((s.lane l).txMarker || (s.lane l).rxMarker) = true) : s.domainMarkers d = true :=
  List.any_eq_true.mpr ⟨l, List.mem_finRange _, by rw [marked, Bool.and_true]; exact decide_eq_true hl⟩

theorem handOn_lanesOk (hs : s.LanesOk) (c : Claim) : (s.handOn c).LanesOk := by
  cases c with
  | domainEvent d => exact lanesOk_modDomain hs rfl rfl id
  | marker l => exact lanesOk_modLane hs { hs l with }
  | overrideEvent => exact hs
  | done h => exact hs
  | data x => exact hs
  | streamEvent i => exact hs
  | streamDetached i g r => exact hs

theorem Retimed.lanesOk {c : Instr} (h : Retimed c s t) (hd : s.DomainsOk) (hs : s.LanesOk) : t.LanesOk := by
  have ok := domainsOk_iff.mp hd
  cases h with
  | still => exact hs
  | reset _ =>
    intro l
    rw [show (s.fullReset _ _ _).lane l = Lane.afterReset from vector_get_replicate _ l]
    exact ⟨fun e => (by cases e), fun f hf => (by cases hf), fun e => (by cases e), fun a ha => (by cases ha)⟩
  | @configures _ _ d cfg passed =>
    obtain ⟨-, -, -, width⟩ := checkSetDomain_fields passed
    refine lanesOk_of_silenced hs (setDomain_lane s d cfg) (fun e => setDomain_domain_ne s d cfg) fun l hl marked => ?_
    rw [setDomain_domain]
    exact width (domainMarkers_of_lane hl marked)
  | wires passed =>
    exact lanesOk_modLane hs ⟨checkSetLane_markers passed, fun f hf => (by cases hf), fun e => (by cases e),
      fun a ha => (by cases ha)⟩
  | stages => exact lanesOk_modLane hs { hs _ with }
  | handsOn => exact handOn_lanesOk hs _
  | opens _ => exact lanesOk_modDomain hs rfl rfl id
  | @advances _ d _ duration rx external locked =>
    refine frameEvent_lanesOk (lanesOk_modDomain hs rfl rfl id) rx ?_ ?_ <;> rw [State.domain_modDomain_same]
    · exact (ok d).durationNoted external duration
    · exact locked
  | counts _ _ _ => exact lanesOk_modDomain hs rfl rfl id
  | @locks _ d _ duration rx external measuring =>
    have made := lockedBy_domain s d duration
    refine frameEvent_lanesOk (lanesOk_of_domains hs (fun e => ?_) fun l => ?_) rx ?_ ?_
    · by_cases h : e = d
      · rw [h, made]
        exact ⟨rfl, rfl, fun _ => rfl⟩
      · rw [lockedBy_domain_ne s d duration h]
        exact ⟨rfl, rfl, id⟩
    · rw [lockedBy_lane]
      split
      · exact .inr rfl
      · exact .inl rfl
    · rw [made]
      exact (ok d).justLocked external measuring duration
    · rw [made]
      rfl
  | @loses _ _ d measuring _ =>
    refine lanesOk_of_silenced hs (afterLoss_lane s d measuring) (fun e => afterLoss_domain_ne s d measuring) fun l hl marked => ?_
    rw [afterLoss_domain]
    exact (hl ▸ hs l).marker marked
  | ends => exact lanesOk_modDomain hs rfl rfl id
  | lapses _ => exact lanesOk_modDomain hs rfl rfl id
  | @ticks _ d rx internal => exact frameEvent_lanesOk hs rx (ok d) ((ok d).locked_of_internal internal)

end

/-! ### The steps -/

section
variable {s t : State}

theorem State.DomainsOk.congr (hs : s.DomainsOk) (h : t.clocking = s.clocking) : t.DomainsOk :=
  domainsOk_iff.mpr fun d => domain_of_clocking h d ▸ domainsOk_iff.mp hs d

theorem State.LanesOk.congr (hs : s.LanesOk) (h : t.clocking = s.clocking) : t.LanesOk := fun l => by
  rw [lane_of_clocking h, domain_of_clocking h]
  exact hs l

end

/-- Settles O55: the domains and the lanes change as `Retimed` says, and each such change keeps both. -/
theorem stepKeepsDomainsAndLanes : Obligations.StepKeepsDomainsAndLanes := by
  intro s t hd hl h
  unfold step at h
  split at h
  · cases h; exact ⟨hd, hl⟩
  · next c rest _ =>
    obtain ⟨u, v, from_s, acts, to_t⟩ := exec_retimes h
    have same : u.clocking = s.clocking := from_s
    have domains := hd.congr same
    exact ⟨(acts.domainsOk domains).congr to_t, (acts.lanesOk domains (hl.congr same)).congr to_t⟩

/-- Settles O18: of what `Retimed` lists, frame events, SET DOMAIN and the full resets alone write a counter. -/
theorem counterMovesOnlyAtFrameEvents : Obligations.CounterMovesOnlyAtFrameEvents := by
  intro c s t d hs h
  obtain ⟨u, v, from_s, acts, to_t⟩ := exec_retimes h
  have ok := domainsOk_iff.mp (hs.congr from_s)
  rw [domain_of_clocking to_t, ← domain_of_clocking from_s]
  have written : ∀ (e : DomainId) (f : Domain → Domain), (f (u.domain e)).counter = (u.domain e).counter →
      ((u.modDomain e f).domain d).counter = (u.domain d).counter := fun e f hf => by
    by_cases h : d = e
    · rw [h, State.domain_modDomain_same, hf]
    · rw [State.domain_modDomain_ne _ _ h]
  cases acts with
  | still => exact .inl rfl
  | reset full => exact .inr (.inr ⟨by cases d <;> rfl, .inr full⟩)
  | @configures _ _ e cfg _ =>
    by_cases h : d = e
    · subst h
      exact .inr (.inr ⟨by rw [setDomain_domain]; rfl, .inl rfl⟩)
    · exact .inl (by rw [setDomain_domain_ne _ _ _ h])
  | wires _ => exact .inl rfl
  | stages => exact .inl rfl
  | handsOn =>
    refine .inl ?_
    rw [handOn_domain]
    split <;> rfl
  | opens _ => exact .inl (written _ _ rfl)
  | @advances _ e bits duration rx _ locked =>
    by_cases h : d = e
    · subst h
      rw [frameEvent_domain, State.domain_modDomain_same]
      exact .inr (.inl ⟨rfl, locked, .inl ⟨_, _, _, rfl⟩⟩)
    · exact .inl (by rw [frameEvent_domain_ne _ _ h, State.domain_modDomain_ne _ _ h])
  | counts _ _ _ => exact .inl (written _ _ rfl)
  | @locks _ e bits duration rx _ _ =>
    by_cases h : d = e
    · subst h
      rw [frameEvent_domain, lockedBy_domain]
      exact .inr (.inl ⟨rfl, rfl, .inl ⟨_, _, _, rfl⟩⟩)
    · exact .inl (by rw [frameEvent_domain_ne _ _ h, lockedBy_domain_ne _ _ _ h])
  | @loses _ _ e measuring _ =>
    by_cases h : d = e
    · subst h
      exact .inl (by rw [afterLoss_domain]; rfl)
    · exact .inl (by rw [afterLoss_domain_ne _ _ _ h])
  | ends => exact .inl (written _ _ rfl)
  | lapses _ => exact .inl (written _ _ rfl)
  | @ticks _ e rx internal =>
    by_cases h : d = e
    · subst h
      rw [frameEvent_domain]
      exact .inr (.inl ⟨rfl, (ok d).locked_of_internal internal, .inr ⟨_, rfl⟩⟩)
    · exact .inl (by rw [frameEvent_domain_ne _ _ h])

end Sys2Proof.Machine

/-! ## QUERY TIME and SET DOMAIN (R89, R90, R101, R102) -/

namespace Sys2Proof.Machine

/-! ### QUERY TIME -/

theorem domainOf_eq_none {b : Byte} (h0 : b ≠ 0) (h1 : b ≠ 1) : domainOf b = none := by
  unfold domainOf
  split
  · next e => exact absurd (BitVec.eq_of_toNat_eq e) h0
  · next e => exact absurd (BitVec.eq_of_toNat_eq e) h1
  · rfl

section
variable {s : State} {r : Request} {rest : List Request}

/-- QUERY TIME for a domain shows it as it stands (R101). -/
theorem queryTime_answers {b : Byte} {d : DomainId} (hin : s.port.inbound = r :: rest) (hk : r.kind = 0x11)
    (hp : r.payload = [b]) (hd : domainOf b = some d) :
    exec .queryTime s = .next (s.answered rest r .ok (.domain d (s.domain d).state (s.domain d).counter)) := by
  have passed : checkQueryTime r.payload = .ok d := by rw [hp, checkQueryTime, byteAt_cons_zero, hd]
  refine congrArg Host.Outcome.next ((takeKind_acts (check := fun _ => checkQueryTime) hin (by rw [hk]; rfl) rfl
    (by rw [hp]; rfl) passed).trans ?_)
  rw [State.reply_afterTaking]
  cases d <;> rfl

theorem queryTime_refuses {b : Byte} (hin : s.port.inbound = r :: rest) (hk : r.kind = 0x11) (hp : r.payload = [b])
    (hd : domainOf b = none) : exec .queryTime s = .next (s.answered rest r .badField (.subject b)) := by
  have failed : checkQueryTime r.payload = .error .badField := by rw [hp, checkQueryTime, byteAt_cons_zero, hd]
  have subject : byteAt r.payload 0 = b := by rw [hp]; rfl
  refine congrArg Host.Outcome.next ((takeKind_refused (check := fun _ => checkQueryTime) hin (by rw [hk]; rfl) rfl
    (by rw [hp]; rfl) rfl failed).trans ?_)
  rw [subject]

end

/-- Settles O17. -/
theorem queryTimeReadsCounter : Obligations.QueryTimeReadsCounter := by
  intro s r rest b hin hk hp
  refine ⟨fun h => ?_, fun h => ?_, fun h0 h1 => queryTime_refuses hin hk hp (domainOf_eq_none h0 h1)⟩
  · exact queryTime_answers hin hk hp (by rw [h]; rfl)
  · exact queryTime_answers hin hk hp (by rw [h]; rfl)

/-! ### The checks of SET DOMAIN -/

theorem sourceOf_isSome {b : Byte} : (sourceOf b).isSome = true ↔ b.toNat ≤ 2 := by
  unfold sourceOf
  split
  · next e => simp [e]
  · next e => simp [e]
  · next e => simp [e]
  · next h0 h1 h2 =>
    have : ¬ b.toNat ≤ 2 := by
      intro h
      interval_cases b.toNat
      · exact h0 rfl
      · exact h1 rfl
      · exact h2 rfl
    simpa using this

section
variable {s : State} {d : DomainId} {bd bs bv bn bw : Byte}

/-- The fields of a SET DOMAIN payload are in range but for the domain (R89 step 1). -/
def domainFieldsOk (bs bv bn bw : Byte) : Prop :=
  bs.toNat ≤ 2 ∧ 1 ≤ bv.toNat ∧ bv.toNat ≤ 64 ∧ bn.toNat ∈ [2, 4, 8] ∧ bw.toNat ∈ [16, 24, 32]

theorem readSetDomain_some {src : Source} (hd : domainOf bd = some d) (hsrc : sourceOf bs = some src)
    (hf : domainFieldsOk bs bv bn bw) : readSetDomain [bd, bs, bv, bn, bw] =
      some (d, { source := src, divider := bv.toNat, slots := bn.toNat, width := bw.toNat }) := by
  obtain ⟨-, range⟩ := hf
  simp only [readSetDomain, byteAt_cons_zero, byteAt_cons_succ, hd, hsrc]
  exact if_pos range

theorem readSetDomain_none (h : domainOf bd = none ∨ ¬ domainFieldsOk bs bv bn bw) :
    readSetDomain [bd, bs, bv, bn, bw] = none := by
  unfold readSetDomain
  simp only [byteAt_cons_zero, byteAt_cons_succ]
  split
  · next hd hsrc =>
    rcases h with h | h
    · rw [h] at hd
      cases hd
    · exact if_neg fun range => h ⟨sourceOf_isSome.mp (by rw [hsrc]; rfl), range⟩
  · rfl

theorem domainOwned_eq_false : s.domainOwned d = false ↔
    ∀ l k, (s.lane l).domain = d → s.txBase l k = none ∧ s.txOverlay l k = none ∧ s.rxBase l k = none := by
  simp only [State.domainOwned, State.laneOwned, List.any_eq_false, List.mem_finRange, forall_const, Bool.and_eq_true,
    decide_eq_true_eq, not_and, Bool.not_eq_true, Bool.or_eq_false_iff, Option.isSome_eq_false_iff, Option.isNone_iff_eq_none,
    and_assoc]
  exact ⟨fun h l k e => h l e k, fun h l e k => h l k e⟩

theorem domainMarkers_eq_true : s.domainMarkers d = true ↔
    ∃ l, (s.lane l).domain = d ∧ ((s.lane l).txMarker = true ∨ (s.lane l).rxMarker = true) := by
  simp [State.domainMarkers]

/-- R89 step 2, as the model tests it. -/
theorem unowned_iff :
    (∀ l k, (s.lane l).domain = d → s.txBase l k = none ∧ s.txOverlay l k = none ∧ s.rxBase l k = none) ↔
      (!s.domainOwned d) = true := by
  rw [Bool.not_eq_true', domainOwned_eq_false]

/-- R89 step 3, as the model tests it. -/
theorem unmarked_iff :
    ((∃ l, (s.lane l).domain = d ∧ ((s.lane l).txMarker = true ∨ (s.lane l).rxMarker = true)) → bw = 32) ↔
      (!s.domainMarkers d || bw.toNat == 32) = true := by
  have width : bw = 32 ↔ bw.toNat = 32 := ⟨fun e => e ▸ rfl, fun e => BitVec.eq_of_toNat_eq e⟩
  rw [← domainMarkers_eq_true, Bool.or_eq_true, Bool.not_eq_true', beq_iff_eq, ← Bool.not_eq_true, imp_iff_not_or, width]

/-- The checks of R89 behind the fields, as the model makes them. -/
def State.domainChecks (s : State) (d : DomainId) (width : Nat) : List (Bool × Status) :=
  [(!s.domainOwned d, .domainBusy), (!s.domainMarkers d || width == 32, .markerWidth)]

theorem checkSetDomain_of_read {p : List Byte} {c : DomainConfig} (h : readSetDomain p = some (d, c)) :
    s.checkSetDomain p = match firstFailure (s.domainChecks d c.width) with
      | some st => .error st
      | none => .ok (d, c) := by
  rw [State.checkSetDomain, h]
  rfl

theorem checkSetDomain_unread {p : List Byte} (h : readSetDomain p = none) : s.checkSetDomain p = .error .badField := by
  rw [State.checkSetDomain, h]

end

/-! ### SET DOMAIN -/

section
variable {s : State} {r : Request} {rest : List Request} {d : DomainId} {bd bs bv bn bw : Byte}

theorem setDomain_refuses {st : Status} (hin : s.port.inbound = r :: rest) (hk : r.kind = 0x10)
    (hp : r.payload = [bd, bs, bv, bn, bw]) (failed : s.checkSetDomain r.payload = .error st) :
    exec .setDomain s = .next (s.answered rest r st (.subject bd)) := by
  have subject : byteAt r.payload 0 = bd := by rw [hp]; rfl
  refine congrArg Host.Outcome.next ((takeKind_refused (check := State.checkSetDomain) hin (by rw [hk]; rfl) rfl
    (by rw [hp]; rfl) rfl failed).trans ?_)
  rw [subject]

/-- A SET DOMAIN that passes takes effect on the state from which the request has been taken, and is answered (R90). -/
theorem setDomain_acts {c : DomainConfig} (hin : s.port.inbound = r :: rest) (hk : r.kind = 0x10)
    (hp : r.payload = [bd, bs, bv, bn, bw]) (passed : s.checkSetDomain r.payload = .ok (d, c)) :
    ∃ t, exec .setDomain s = .next t ∧ Timed { s with port := s.port.answered rest r .ok (.domain d c.source.initialState 0) } t ∧
      (∀ e, t.domain e = ((s.afterTaking rest).setDomain d c).domain e) ∧
      (∀ l, t.lane l = ((s.afterTaking rest).setDomain d c).lane l) ∧
      t.claims = ((s.afterTaking rest).setDomain d c).claims := by
  have timed := setDomain_timed (s.afterTaking rest) d c
  refine ⟨_, congrArg Host.Outcome.next ((takeKind_acts (check := State.checkSetDomain) hin (by rw [hk]; rfl) rfl
    (by rw [hp]; rfl) passed).trans (reply_eq (congrArg State.port timed) ..)), ?_, fun e => by cases e <;> rfl, fun _ => rfl, rfl⟩
  exact congrArg (fun x : State => { x with port := s.port.answered rest r .ok (.domain d c.source.initialState 0) }) timed

end

/-- Settles O16. -/
theorem setDomainEffect : Obligations.SetDomainEffect := by
  intro s r rest bd bs bv bn bw hin hk hp
  have refused : ∀ {st}, s.checkSetDomain r.payload = .error st →
      exec .setDomain s = .next (s.answered rest r st (.subject bd)) := setDomain_refuses hin hk hp
  have unread : domainOf bd = none ∨ ¬ domainFieldsOk bs bv bn bw →
      exec .setDomain s = .next (s.answered rest r .badField (.subject bd)) := fun h =>
    refused (by rw [hp, checkSetDomain_unread (readSetDomain_none h)])
  refine ⟨fun d hd => ⟨?_, fun src hsrc low high slots width unowned unmarked => ?_⟩, fun hd => unread (.inl hd)⟩
  · refine refusedInOrder_cons (fun outside => unread (.inr outside)) fun inside => ?_
    obtain ⟨src, hsrc⟩ := Option.isSome_iff_exists.mp (sourceOf_isSome.mpr inside.1)
    refine refusedInOrder_of_firstFailure (bs := s.domainChecks d bw.toNat)
      (.cons ⟨unowned_iff, rfl⟩ (.cons ⟨unmarked_iff, rfl⟩ .nil)) fun st fails => ?_
    exact refused (by rw [hp, checkSetDomain_of_read (readSetDomain_some hd hsrc inside), fails])
  · have read := readSetDomain_some hd hsrc (bs := bs) ⟨sourceOf_isSome.mp (by rw [hsrc]; rfl), low, high, slots, width⟩
    have holds : firstFailure (s.domainChecks d bw.toNat) = none := by
      rw [State.domainChecks, firstFailure_cons, if_pos (unowned_iff.mp unowned), firstFailure_cons,
        if_pos (unmarked_iff.mp unmarked), firstFailure_nil]
    obtain ⟨t, ran, timed, domain, lane, claims⟩ := setDomain_acts hin hk hp
      (by rw [hp, checkSetDomain_of_read read, holds])
    have found : (s.afterTaking rest).domain d = s.domain d := by cases d <;> rfl
    have domainNow := (domain d).trans (setDomain_domain _ d _)
    rw [setDomain_claims, found] at claims
    rw [found] at domainNow
    refine ⟨t, ran, ?_⟩
    intro old new transition
    have state : new = src.initialState := by cases src <;> rfl
    have record : (t.domain d).record = (s.domain d).recordAfter src := by rw [domainNow]
    rw [state]
    refine ⟨timed, fun e he => ?_, fun moves => ⟨?_, ?_⟩, fun stays => ⟨?_, ?_⟩, ?_, fun l => ?_⟩
    · rw [domain, setDomain_domain_ne _ _ _ he]
      cases e <;> rfl
    · rw [record, Domain.recordAfter, if_pos (state ▸ moves)]
      rfl
    · exact claims.trans (if_pos (state ▸ moves))
    · rw [record, Domain.recordAfter, if_neg (state ▸ stays)]
    · exact claims.trans (if_neg (state ▸ stays))
    · rw [record]
      exact domainNow
    · rw [lane, setDomain_lane]
      rfl

end Sys2Proof.Machine

/-! ## A lock lost (R92 to R95) -/

namespace Sys2Proof.Machine

/-- Settles O20. -/
theorem lossOfLock : Obligations.LossOfLock := by
  refine ⟨fun s d bits duration rx source measuring bad => ⟨fun locked => ?_, fun seeking => ?_⟩,
    fun s d elapsed g last => ⟨fun source locked late => ?_, fun seeking late => ?_, fun early => ?_⟩,
    fun s d elapsed last => timeouts_early (not_timedOut last elapsed)⟩
  · rw [frameClosed_bad source measuring bad, badFrameClosed_locked locked]
  · rw [frameClosed_bad source measuring bad, badFrameClosed_seeking seeking]
  · rw [← loseLock_eq]
    exact congrArg Host.Outcome.next (if_pos ⟨source, locked, (timedOut_iff last).mpr late⟩)
  · exact congrArg Host.Outcome.next (if_pos ⟨seeking, (timedOut_iff last).mpr late⟩)
  · exact timeouts_early fun late => Nat.not_le_of_lt early ((timedOut_iff last).mp late)

end Sys2Proof.Machine

/-! ## A frame event stays in its domain (R92, R95, R97, R98, R102, R107, R110) -/

namespace Sys2Proof.Machine

/-! ### What a frame event leaves alone -/

/-- From `s` to `t` only the streams that satisfy `P`, the descriptors of their queues, the void mark of the move in flight, the
tails of the claim list and the free list, the domains and the lanes change. -/
structure EventScope (P : StreamNo → Prop) (s t : State) : Prop where
  port : t.port = s.port
  mem : t.mem = s.mem
  owners : t.owners = s.owners
  control : t.control = s.control
  claims : s.claims <+: t.claims
  free : s.freeList <+: t.freeList
  inFlight : t.inFlight.map (fun m => { m with void := false }) = s.inFlight.map fun m => { m with void := false }
  streams : ∀ i, ¬ P i → t.stream i = s.stream i
  queues : ∀ i, (t.stream i).queue ⊆ (s.stream i).queue
  descs : ∀ h, (∀ i, P i → h ∉ (s.stream i).queue) → t.desc h = s.desc h

namespace EventScope
variable {P : StreamNo → Prop} {s t u : State}

theorem refl (P : StreamNo → Prop) (s : State) : EventScope P s s :=
  ⟨rfl, rfl, rfl, rfl, List.prefix_refl _, List.prefix_refl _, rfl, fun _ _ => rfl, fun _ => List.Subset.refl _, fun _ _ => rfl⟩

theorem trans (a : EventScope P s t) (b : EventScope P t u) : EventScope P s u where
  port := b.port.trans a.port
  mem := b.mem.trans a.mem
  owners := b.owners.trans a.owners
  control := b.control.trans a.control
  claims := a.claims.trans b.claims
  free := a.free.trans b.free
  inFlight := b.inFlight.trans a.inFlight
  streams i hi := (b.streams i hi).trans (a.streams i hi)
  queues i := List.Subset.trans (b.queues i) (a.queues i)
  descs h hh := (b.descs h fun i hi hm => hh i hi (a.queues i hm)).trans (a.descs h hh)

/-- The domains, the lanes and the claim list alone. -/
theorem of_timed (h : Timed s t) (claims : s.claims <+: t.claims) : EventScope P s t := by
  rw [h]
  exact { refl P s with claims := claims }

theorem modDomain (s : State) (d : DomainId) (f : Domain → Domain) : EventScope P s (s.modDomain d f) :=
  .of_timed (.modDomain s d f) (by simp)

theorem mapLanesOf (s : State) (d : DomainId) (f : LaneNo → Lane → Lane) : EventScope P s (s.mapLanesOf d f) :=
  .of_timed (.mapLanesOf s d f) (List.prefix_refl _)

theorem lockTransition (s : State) (d : DomainId) : EventScope P s (s.lockTransition d) :=
  .of_timed (.lockTransition s d) (by rw [lockTransition_claims]; split <;> simp)

/-- The item of a stream that satisfies `P`. -/
theorem of_event {i : StreamNo} (hi : P i) (a : EventFrame i s t) : EventScope P s t where
  port := a.port
  mem := a.mem
  owners := a.owners
  control := a.control
  claims := a.claims
  free := a.free
  inFlight := by
    rcases a.inFlight with e | ⟨p, -, e⟩
    · rw [e]
    · rw [e, Option.map_map]
      rfl
  streams j hj := a.others j fun e => hj (e ▸ hi)
  queues j := by
    by_cases e : j = i
    · rw [e]
      exact a.queue.subset
    · rw [a.others j e]
      exact List.Subset.refl _
  descs h hh := a.descs h (hh i hi)

theorem laneEvent (s : State) (l : LaneNo) (W : Nat) (rx : RxFrame) (f : FrameNo) : EventScope P s (s.laneEvent l W rx f) := by
  obtain ⟨-, port, streams, owners, descs, free, mem, flight, mode, rotation, -, -, ovr, -, claims, -⟩ := laneEvent_frame s l W rx f
  have stream : ∀ i, (s.laneEvent l W rx f).stream i = s.stream i := fun i => by rw [State.stream, streams]; rfl
  refine ⟨port, mem, owners, control_eq_iff.mpr ⟨mode, rotation, ovr⟩, claims, ?_, by rw [flight], fun i _ => stream i,
    fun i => ?_, fun h _ => ?_⟩
  · rw [free]
  · rw [stream]
    exact List.Subset.refl _
  · rw [State.desc, descs]
    rfl

theorem foldl_itemEvent {dom : Domain} {rx : RxFrame} {xs : List Item} (hx : ∀ i, Item.stream i ∈ xs → P i) (s : State) :
    EventScope P s (xs.foldl (State.itemEvent dom rx) s) := by
  induction xs generalizing s with
  | nil => exact .refl P s
  | cons x xs ih =>
    refine EventScope.trans ?_ (ih (fun i hi => hx i (List.mem_cons_of_mem _ hi)) _)
    cases x with
    | stream i => exact .of_event (hx i List.mem_cons_self) (itemEvent_stream_frame dom rx s i)
    | lane l => exact .laneEvent s l dom.width rx (dom.counter - 1)

theorem sent (s : State) (d : DomainId) : EventScope P s (s.sent d) := by
  unfold State.sent
  split
  · exact .mapLanesOf s d _
  · exact (EventScope.mapLanesOf s d _).trans (.mapLanesOf _ d _)

theorem advanced (s : State) (d : DomainId) : EventScope P s (s.advanced d) := by
  have counted : ∀ (u : State) n, EventScope P u { u with freeCount := n } := fun u _ => { EventScope.refl P u with }
  exact ((EventScope.modDomain s d _).trans (.mapLanesOf _ d _)).trans (counted _ _)

/-- A frame event of a domain concerns its open streams (R97). -/
theorem frameEvent (s : State) (d : DomainId) (rx : RxFrame) :
    EventScope (fun i => (s.stream i).isOpen = true ∧ (s.stream i).domain = d) s (s.frameEvent d rx) := by
  rw [frameEvent_eq]
  exact ((EventScope.sent s d).trans (.foldl_itemEvent (fun i hi => mem_items_stream.mp (mem_order.mp hi)) _)).trans (.advanced _ d)

end EventScope

end Sys2Proof.Machine

/-! ### What the frame event finds -/

namespace Sys2Proof.Machine

section
variable {s u : State} {c : Instr} {d : DomainId} {rx : RxFrame}

/-- Command `c` makes a frame event of domain `d` in state `s`, and the event finds the state `u`: the closed frame's duration
noted, and the lock recorded when the edge gives one (R91, R92, R95, R102, R120). -/
structure EventFound (c : Instr) (d : DomainId) (rx : RxFrame) (s u : State) : Prop where
  ran : exec c s = .next (u.frameEvent d rx)
  timed : Timed s u
  claims : s.claims <+: u.claims
  others : ∀ e, e ≠ d → u.domain e = s.domain e
  lanes : ∀ l, u.lane l = s.lane l ∨ (s.lane l).domain = d ∧ u.lane l = { s.lane l with assembly := none }
  takes : s.takesFrameEvent c d rx → u.domain d = { s.domain d with lastGood := (u.domain d).lastGood }
  locks : s.locksAtEvent c d rx → Claim.domainEvent d ∈ u.claims ∧
    u.domain d = (s.domain d).justLocked (u.domain d).lastGood
  noted : ∀ bits duration, c = .frameClosed d bits duration rx → (u.domain d).lastGood = some duration
  kept : c = .generatorBoundary d rx → (u.domain d).lastGood = (s.domain d).lastGood

/-- A domain that seeks its lock is not LOCKED. -/
theorem not_locked_of_seeking {st : DomainState} (seeking : st = .acquiring ∨ st = .lost) : st ≠ .locked := by
  rcases seeking with rfl | rfl <;> decide

/-- A boundary of an INTERNAL domain. -/
theorem eventFound_boundary (source : (s.domain d).source = .internal) :
    EventFound (.generatorBoundary d rx) d rx s s where
  ran := congrArg Host.Outcome.next (if_pos source)
  timed := rfl
  claims := List.prefix_refl _
  others _ _ := rfl
  lanes _ := .inl rfl
  takes _ := rfl
  locks h := by
    obtain ⟨_, h, -⟩ := h
    cases h
  noted _ _ h := by cases h
  kept _ := rfl

/-- The edge that closes a good frame of a LOCKED domain. -/
theorem eventFound_closing {bits duration : Nat} (source : (s.domain d).source = .external)
    (measuring : (s.domain d).measuring = true) (good : bits = (s.domain d).slots * (s.domain d).width)
    (locked : (s.domain d).state = .locked) : EventFound (.frameClosed d bits duration rx) d rx s
      (s.modDomain d fun dm => { dm with lastGood := some duration }) where
  ran := by rw [frameClosed_good source measuring good, goodFrameClosed_locked locked]
  timed := .modDomain s d _
  claims := by rw [State.modDomain_claims]
  others _ h := State.domain_modDomain_ne s _ h
  lanes l := .inl (State.modDomain_lane s d _ l)
  takes _ := by rw [State.domain_modDomain_same]
  locks h := by
    obtain ⟨-, -, -, -, -, seeking⟩ := h
    exact absurd locked (not_locked_of_seeking seeking)
  noted _ _ h := by
    cases h
    rw [State.domain_modDomain_same]
  kept h := by cases h

/-- The edge that closes the sixteenth good frame. -/
theorem eventFound_locking {bits duration : Nat} (source : (s.domain d).source = .external)
    (measuring : (s.domain d).measuring = true) (good : bits = (s.domain d).slots * (s.domain d).width)
    (seeking : (s.domain d).state = .acquiring ∨ (s.domain d).state = .lost) (run : (s.domain d).goodRun = 15) :
    EventFound (.frameClosed d bits duration rx) d rx s (s.lockedBy d duration) where
  ran := by rw [frameClosed_good source measuring good, goodFrameClosed_locks seeking run]
  timed := ((Timed.modDomain s d _).trans (.modDomain _ d _)).trans (.lockTransition _ d)
  claims := by
    rw [lockedBy_claims]
    split <;> simp
  others _ h := lockedBy_domain_ne s d duration h
  lanes l := by
    rw [lockedBy_lane]
    split
    · next here => exact .inr ⟨here, rfl⟩
    · exact .inl rfl
  takes h := by
    rcases h with ⟨h, -⟩ | ⟨_, _, -, -, locked, -⟩
    · cases h
    · exact absurd locked (not_locked_of_seeking seeking)
  locks _ := by
    rw [lockedBy_claims, lockedBy_domain]
    refine ⟨?_, rfl⟩
    split <;> simp [*]
  noted _ _ h := by
    cases h
    rw [lockedBy_domain]
    rfl
  kept h := by cases h

/-- The three ways to a frame event (R95, R96). -/
theorem makesFrameEvent_found (hc : s.makesFrameEvent c d rx) : ∃ u, EventFound c d rx s u := by
  rcases hc with (⟨rfl, source⟩ | ⟨bits, duration, rfl, source, locked, measuring, good⟩) |
    ⟨duration, rfl, source, measuring, run, seeking⟩
  · exact ⟨_, eventFound_boundary source⟩
  · exact ⟨_, eventFound_closing source measuring good locked⟩
  · exact ⟨_, eventFound_locking source measuring rfl seeking run⟩

namespace EventFound

/-- The whole command around the event: the streams of the domain, the claims, pages and void mark (R97). -/
theorem scope (h : EventFound c d rx s u) :
    EventScope (fun i => (s.stream i).isOpen = true ∧ (s.stream i).domain = d) s (u.frameEvent d rx) := by
  have event := EventScope.frameEvent u d rx
  simp only [h.timed.stream] at event
  exact (EventScope.of_timed h.timed h.claims).trans event

theorem domain_ne (h : EventFound c d rx s u) {e : DomainId} (he : e ≠ d) : (u.frameEvent d rx).domain e = s.domain e :=
  (frameEvent_domain_ne u rx he).trans (h.others e he)

/-- The lane keeps its configuration up to the event. -/
theorem lane_eq (h : EventFound c d rx s u) (l : LaneNo) : ∃ a, u.lane l = { s.lane l with assembly := a } := by
  rcases h.lanes l with e | ⟨-, e⟩
  · exact ⟨_, e⟩
  · exact ⟨_, e⟩

/-- A lane of the other domain (R107). -/
theorem lane_ne (h : EventFound c d rx s u) {l : LaneNo} (hl : (s.lane l).domain ≠ d) :
    (u.frameEvent d rx).lane l = s.lane l := by
  have same : u.lane l = s.lane l := (h.lanes l).resolve_right fun e => hl e.1
  rw [frameEvent_lane_ne (by rw [same]; exact hl), same]

end EventFound

theorem composeFrame_isSome (dom : Domain) (l : LaneNo) (ln : Lane) : (s.composeFrame dom l ln).isSome = ln.txEnable := by
  unfold State.composeFrame
  cases ln.txEnable <;> rfl

/-- A lane of the domain keeps its configuration, sends while transmit-enabled and gathers while receive-enabled (R107, R110). -/
theorem frameEvent_lane_configured {l : LaneNo} (hl : (s.lane l).domain = d) :
    ((s.frameEvent d rx).lane l).txFrame.isSome = (s.lane l).txEnable ∧
      ((s.frameEvent d rx).lane l).gathering = (s.lane l).rxEnable ∧ ((s.frameEvent d rx).lane l).domain = d ∧
      ((s.frameEvent d rx).lane l).txEnable = (s.lane l).txEnable ∧
      ((s.frameEvent d rx).lane l).rxEnable = (s.lane l).rxEnable ∧
      ((s.frameEvent d rx).lane l).txMarker = (s.lane l).txMarker ∧
      ((s.frameEvent d rx).lane l).rxMarker = (s.lane l).rxMarker := by
  obtain ⟨ln, remarks, -, lane⟩ := frameEvent_lane (rx := rx) hl
  obtain ⟨_, _, sent⟩ := laneSent_eq s d l
  obtain ⟨_, _, _, rest⟩ := remarks.rest
  obtain ⟨_, _, taken⟩ := (s.lane l).takeUp_eq (s.domain d).counter
  rw [lane, rest, sent]
  exact ⟨by rw [composeFrame_isSome, taken], rfl, hl, rfl, rfl, rfl, rfl⟩

end

/-- Settles O19. -/
theorem sixteenthGoodFrameLocks : Obligations.SixteenthGoodFrameLocks := by
  intro s d bits duration rx source
  refine ⟨frameClosed_opens source, fun measuring seeking good => ⟨fun short => ?_, fun sixteenth => ?_⟩⟩
  · rw [frameClosed_good source measuring good, goodFrameClosed_counts seeking short]
  · have run : (s.domain d).goodRun = 15 := Nat.succ.inj sixteenth
    have locks : s.locksAtEvent (.frameClosed d bits duration rx) d rx := ⟨duration, by rw [good], source, measuring, run, seeking⟩
    obtain ⟨u, found⟩ := makesFrameEvent_found (.inr locks)
    obtain ⟨claim, domain⟩ := found.locks locks
    rw [found.noted _ _ rfl] at domain
    have scope := found.scope
    obtain ⟨-, -, ovr⟩ := control_eq_iff.mp scope.control
    refine ⟨_, found.ran, ?_, (EventScope.frameEvent u d rx).claims.subset claim, fun e he => found.domain_ne he, scope.port,
      scope.mem, ovr, scope.owners⟩
    rw [frameEvent_domain, domain]
    rfl

/-- Settles O21. -/
theorem frameEventStaysInDomain : Obligations.FrameEventStaysInDomain := by
  intro s c d rx hc
  obtain ⟨u, found⟩ := makesFrameEvent_found hc
  have scope := found.scope
  obtain ⟨mode, rotation, ovr⟩ := control_eq_iff.mp scope.control
  have isOpen : ∀ {i}, (s.stream i).isOpen = true ↔ (s.stream i).state ≠ .closed := decide_eq_true_iff
  have lastGood : ((u.frameEvent d rx).domain d).lastGood = (u.domain d).lastGood := by
    rw [frameEvent_domain]
    rfl
  refine ⟨_, found.ran, fun takes => ?_, fun locks => ⟨?_, ?_⟩, fun bits duration e => ?_, fun e => ?_, fun e he => found.domain_ne he,
    scope.port, scope.mem, scope.owners, mode, rotation, ovr, scope.claims, scope.free, scope.inFlight, fun i hi => ?_,
    fun h hh => ?_, fun l hl => found.lane_ne hl, fun l hl => ?_⟩
  · rw [lastGood, frameEvent_domain, found.takes takes]
    rfl
  · exact (EventScope.frameEvent u d rx).claims.subset (found.locks locks).1
  · rw [lastGood, frameEvent_domain, (found.locks locks).2]
    rfl
  · rw [lastGood, found.noted bits duration e]
  · rw [lastGood, found.kept e]
  · refine scope.streams i fun ⟨ho, hd⟩ => ?_
    rcases hi with closed | other
    · exact isOpen.mp ho closed
    · exact other hd
  · exact scope.descs h fun i hi => hh i (isOpen.mp hi.1) hi.2
  · obtain ⟨_, same⟩ := found.lane_eq l
    have configured := frameEvent_lane_configured (s := u) (rx := rx) (l := l) (d := d) (by rw [same]; exact hl)
    rw [same] at configured
    exact configured

/-! ### The first event of a lock -/

section
variable {s u : State} {c : Instr} {d : DomainId} {rx : RxFrame}

/-- An event that delivers nothing leaves a capture stream as it is (R20, R98). -/
theorem foldl_itemEvent_undelivered {dom : Domain} {i : StreamNo} (hd : dom.delivers = false)
    (hi : (s.stream i).direction = .capture) (xs : List Item) : Outside i s (xs.foldl (State.itemEvent dom rx) s) := by
  induction xs generalizing s with
  | nil => exact .refl i s
  | cons x xs ih =>
    have step : Outside i s (State.itemEvent dom rx s x) := by
      by_cases own : x = .stream i
      · have idle : State.itemEvent dom rx s (.stream i) = s := by
          simp only [State.itemEvent, hi, hd, Bool.false_eq_true, if_false]
        rw [own, idle]
        exact .refl i s
      · exact itemEvent_outside own
    exact step.trans (ih (by rw [step.stream]; exact hi))

theorem EventFound.outside (h : EventFound c d rx s u) (i : StreamNo) : Outside i s u :=
  .of_eq h.timed.stream h.timed.desc h.timed.inFlight (fun l => by
    obtain ⟨_, same⟩ := h.lane_eq l
    rw [same]) h.claims.subset

/-- A lane at an event that delivers nothing has no assembly, and its marker words stay (R120). -/
theorem frameEvent_lane_undelivered {l : LaneNo} (hl : (s.lane l).domain = d) (hd : (s.domain d).delivers = false) :
    ((s.frameEvent d rx).lane l).assembly = none ∧
      ((s.frameEvent d rx).lane l).lastReported = (s.lane l).lastReported ∧
      ((s.frameEvent d rx).lane l).eventWord = (s.lane l).eventWord := by
  obtain ⟨ln, -, alone, lane⟩ := frameEvent_lane (rx := rx) hl
  obtain ⟨_, _, sent⟩ := laneSent_eq s d l
  have noItem : Item.lane l ∉ s.items d := fun h => Bool.eq_false_iff.mp hd (mem_items_lane.mp h).1
  rw [lane, alone noItem, sent]
  exact ⟨if_neg (Bool.eq_false_iff.mp hd), rfl, rfl⟩

end

/-- Settles O22. -/
theorem firstEventDeliversNothing : Obligations.FirstEventDeliversNothing := by
  intro s c d rx hs hc
  have makes : s.makesFrameEvent c d rx := hc.imp And.left id
  obtain ⟨u, found⟩ := makesFrameEvent_found makes
  have first : (u.domain d).delivers = false := by
    rcases hc with ⟨takes, first⟩ | locks
    · rw [found.takes takes]
      exact first
    · rw [(found.locks locks).2]
      rfl
  refine ⟨_, found.ran, by rw [frameEvent_domain]; rfl, fun i hi => ?_, fun l hl => ?_⟩
  · have ahead := (found.outside i).trans (sent_outside (i := i) d)
    have settled := ahead.trans (foldl_itemEvent_undelivered (rx := rx) first (by rw [ahead.stream]; exact hi) (u.order d))
    obtain ⟨stream, descs, -⟩ := advanced_keeps (i := i) (s := (u.order d).foldl (State.itemEvent (u.domain d) rx) (u.sent d)) d
    rw [frameEvent_eq]
    exact ⟨stream.trans settled.stream, fun h hh => (descs h).trans (settled.own hs hh)⟩
  · obtain ⟨_, same⟩ := found.lane_eq l
    have quiet := frameEvent_lane_undelivered (s := u) (rx := rx) (l := l) (d := d) (by rw [same]; exact hl) first
    rw [same] at quiet
    exact quiet

end Sys2Proof.Machine

/-! ## SET LANE and SET MARKER (R108, R109, R118) -/

namespace Sys2Proof.Machine

/-! ### The checks of SET LANE -/

section
variable {s : State} {l : LaneNo} {d : DomainId} {c : LaneConfig} {bl bd b2 b3 b4 b5 : Byte} {tx rx txm rxm : Bool}

/-- The four flags of a SET LANE payload are in range (R108 step 1, R174). -/
def laneFlagsOk (b2 b3 b4 b5 : Byte) : Prop := b2.toNat ≤ 1 ∧ b3.toNat ≤ 1 ∧ b4.toNat ≤ 1 ∧ b5.toNat ≤ 1

theorem readSetLane_some (hl : laneOf bl = some l) (hd : domainOf bd = some d) (h2 : flagOf b2 = some tx)
    (h3 : flagOf b3 = some rx) (h4 : flagOf b4 = some txm) (h5 : flagOf b5 = some rxm) :
    readSetLane [bl, bd, b2, b3, b4, b5] = some (l, { domain := d, tx := tx, rx := rx, txMarker := txm, rxMarker := rxm }) := by
  simp only [readSetLane, byteAt_cons_zero, byteAt_cons_succ, hl, hd, h2, h3, h4, h5]

theorem readSetLane_none (h : laneOf bl = none ∨ domainOf bd = none ∨ ¬ laneFlagsOk b2 b3 b4 b5) :
    readSetLane [bl, bd, b2, b3, b4, b5] = none := by
  unfold readSetLane
  simp only [byteAt_cons_zero, byteAt_cons_succ]
  split
  · next hl hd h2 h3 h4 h5 =>
    rcases h with h | h | h
    · rw [h] at hl
      cases hl
    · rw [h] at hd
      cases hd
    · exact absurd ⟨flagOf_range h2, flagOf_range h3, flagOf_range h4, flagOf_range h5⟩ h
  · rfl

/-- R108 step 2, as the model tests it. -/
theorem laneUnowned_iff :
    (∀ k, s.txBase l k = none ∧ s.txOverlay l k = none ∧ s.rxBase l k = none) ↔ (!s.laneOwned l) = true := by
  simp [State.laneOwned, and_assoc]

/-- R108 step 3, as the model tests it. -/
theorem markersFit_iff {W : Nat} : (txm = true ∨ rxm = true → W = 32) ↔ (!(txm || rxm) || W == 32) = true := by
  cases txm <;> cases rxm <;> simp

/-- The checks of R108 behind the fields, as the model makes them. -/
def State.laneChecks (s : State) (l : LaneNo) (c : LaneConfig) : List (Bool × Status) :=
  [(!s.laneOwned l, .laneInUse), (!(c.txMarker || c.rxMarker) || (s.domain c.domain).width == 32, .markerWidth)]

theorem checkSetLane_read {p : List Byte} (h : readSetLane p = some (l, c)) :
    (∀ st, firstFailure (s.laneChecks l c) = some st → s.checkSetLane p = .error st) ∧
      (firstFailure (s.laneChecks l c) = none → s.checkSetLane p = .ok (l, c)) := by
  unfold State.laneChecks
  constructor
  · intro st fails
    simp only [State.checkSetLane, h, fails]
  · intro holds
    simp only [State.checkSetLane, h, holds]

theorem checkSetLane_unread {p : List Byte} (h : readSetLane p = none) : s.checkSetLane p = .error .badField := by
  rw [State.checkSetLane, h]

end

/-! ### SET LANE -/

section
variable {s : State} {r : Request} {rest : List Request} {l : LaneNo} {c : LaneConfig} {bl bd b2 b3 b4 b5 : Byte}

theorem setLane_refuses {st : Status} (hin : s.port.inbound = r :: rest) (hk : r.kind = 0x12)
    (hp : r.payload = [bl, bd, b2, b3, b4, b5]) (failed : s.checkSetLane r.payload = .error st) :
    exec .setLane s = .next (s.answered rest r st (.subject bl)) := by
  have seen : (s.afterTaking rest).checkSetLane r.payload = .error st := failed
  have subject : byteAt r.payload 0 = bl := by rw [hp]; rfl
  refine congrArg Host.Outcome.next ((takeKind_refused (check := State.checkSetLane) hin (by rw [hk]; rfl) rfl
    (by rw [hp]; rfl) rfl seen).trans ?_)
  rw [subject]

/-- A SET LANE that passes configures the lane and is answered with the configuration (R109). -/
theorem setLane_acts (hin : s.port.inbound = r :: rest) (hk : r.kind = 0x12) (hp : r.payload = [bl, bd, b2, b3, b4, b5])
    (passed : s.checkSetLane r.payload = .ok (l, c)) :
    exec .setLane s = .next { s.modLane l fun ln => ln.configure c with
      port := s.port.answered rest r .ok (.lane l c.domain c.tx c.rx c.txMarker c.rxMarker) } := by
  have seen : (s.afterTaking rest).checkSetLane r.payload = .ok (l, c) := passed
  exact congrArg Host.Outcome.next ((takeKind_acts (check := State.checkSetLane) hin (by rw [hk]; rfl) rfl
    (by rw [hp]; rfl) seen).trans (reply_eq rfl ..))

end

/-- Settles O23. -/
theorem setLaneEffect : Obligations.SetLaneEffect := by
  intro s r rest bl bd b2 b3 b4 b5 hin hk hp
  have refused : ∀ {st}, s.checkSetLane r.payload = .error st →
      exec .setLane s = .next (s.answered rest r st (.subject bl)) := setLane_refuses hin hk hp
  have unread : laneOf bl = none ∨ domainOf bd = none ∨ ¬ laneFlagsOk b2 b3 b4 b5 →
      exec .setLane s = .next (s.answered rest r .badField (.subject bl)) := fun h =>
    refused (by rw [hp, checkSetLane_unread (readSetLane_none h)])
  refine ⟨fun l d hl hd => ⟨?_, fun tx rx txm rxm h2 h3 h4 h5 unowned fits => ?_⟩, fun h => unread (h.imp_right .inl)⟩
  · refine refusedInOrder_cons (fun outside => unread (.inr (.inr outside))) fun ⟨h2, h3, h4, h5⟩ => ?_
    obtain ⟨failed, -⟩ := checkSetLane_read (s := s)
      (readSetLane_some hl hd (flagOf_legal h2) (flagOf_legal h3) (flagOf_legal h4) (flagOf_legal h5))
    have markers : (b4 = 1 ∨ b5 = 1 → (s.domain d).width = 32) ↔
        (!(decide (b4 = 1) || decide (b5 = 1)) || (s.domain d).width == 32) = true := by
      rw [← markersFit_iff, decide_eq_true_iff, decide_eq_true_iff]
    refine refusedInOrder_of_firstFailure (bs := s.laneChecks l
        { domain := d, tx := decide (b2 = 1), rx := decide (b3 = 1), txMarker := decide (b4 = 1), rxMarker := decide (b5 = 1) })
      (.cons ⟨laneUnowned_iff, rfl⟩ (.cons ⟨markers, rfl⟩ .nil)) fun st fails => ?_
    exact refused (hp ▸ failed st fails)
  · obtain ⟨-, passed⟩ := checkSetLane_read (s := s) (readSetLane_some hl hd h2 h3 h4 h5)
    have holds : firstFailure (s.laneChecks l { domain := d, tx := tx, rx := rx, txMarker := txm, rxMarker := rxm }) = none := by
      rw [State.laneChecks, firstFailure_cons, if_pos (laneUnowned_iff.mp unowned), firstFailure_cons,
        if_pos (markersFit_iff.mp fits), firstFailure_nil]
    exact setLane_acts hin hk hp (hp ▸ passed holds)

/-! ### SET MARKER -/

/-- Settles O24. -/
theorem setMarkerStagesWord : Obligations.SetMarkerStagesWord := by
  intro s r rest b w0 w1 w2 w3 hin hk hp
  have subject : byteAt r.payload 0 = b := by rw [hp]; rfl
  have word : field4 r.payload 1 = w3 ++ w2 ++ w1 ++ w0 := by rw [hp, field4_eq]; rfl
  refine ⟨fun l hl => ?_, fun outside => ?_⟩
  · have passed : checkSetMarker r.payload = .ok l := by
      rw [checkSetMarker, subject, laneOf_eq_some_iff.mpr hl.symm]
    refine congrArg Host.Outcome.next ((takeKind_acts (check := fun _ => checkSetMarker) hin (by rw [hk]; rfl) rfl
      (by rw [hp]; rfl) passed).trans ((reply_eq rfl ..).trans ?_))
    rw [word]
    rfl
  · have failed : checkSetMarker r.payload = .error .badField := by
      rw [checkSetMarker, subject, laneOf, dif_neg (Nat.not_lt.mpr outside)]
    refine congrArg Host.Outcome.next ((takeKind_refused (check := fun _ => checkSetMarker) hin (by rw [hk]; rfl) rfl
      (by rw [hp]; rfl) rfl failed).trans ?_)
    rw [subject]

end Sys2Proof.Machine

/-! ## Samples in their slots (R112, R113) -/

namespace Sys2Proof.Machine

/-- Bit `i` of a sample is bit `i` of its bytes, least significant byte first, and zero beyond them. -/
theorem sampleOfBytes_getLsbD (bs : List Byte) {i : Nat} (hi : i < 32) :
    (sampleOfBytes bs).getLsbD i = (bs.getD (i / 8) 0).getLsbD (i % 8) := by
  induction bs generalizing i with
  | nil => simp [sampleOfBytes]
  | cons b bs ih =>
    rw [sampleOfBytes, BitVec.getLsbD_or, BitVec.getLsbD_setWidth, BitVec.getLsbD_shiftLeft]
    by_cases low : i < 8
    · simp [low, hi, Nat.div_eq_of_lt low, Nat.mod_eq_of_lt low]
    · have next : i / 8 = (i - 8) / 8 + 1 := by omega
      have same : i % 8 = (i - 8) % 8 := by omega
      rw [ih (by omega : i - 8 < 32), BitVec.getLsbD_of_ge b i (by omega), next, same]
      simp [low, hi]

/-- A packed sample starts at slot bit W - 8w (R112). -/
theorem packSlot_getLsbD (W w : Nat) (x : Word32) (j : Nat) :
    (packSlot W w x).getLsbD j = (decide (j < 32) && !decide (j < W - 8 * w) && x.getLsbD (j - (W - 8 * w))) := by
  rw [packSlot, BitVec.getLsbD_shiftLeft]

/-- Byte `k` of the sample taken from a receive slot is the slot's bits from W - 8w + 8k on (R113). -/
theorem sampleBytes_unpackSlot_getLsbD (W : Nat) {w k j : Nat} (x : Word32) (hk : k < w) (hj : j < 8) :
    ((sampleBytes w (unpackSlot W w x)).getD k 0).getLsbD j = x.getLsbD (W - 8 * w + 8 * k + j) := by
  simp [sampleBytes, unpackSlot, hk, hj, Nat.add_assoc]

/-- Settles O41. -/
theorem samplePacking : Obligations.SamplePacking := by
  intro W w hw fits slot
  refine ⟨fun bs length => ⟨fun k hk j hj => ?_, fun j outside => ?_⟩,
    fun x _ k j hk hj => sampleBytes_unpackSlot_getLsbD W x hk hj⟩
  · have inside : W - 8 * w + 8 * k + j < 32 := by omega
    have place : W - 8 * w + 8 * k + j - (W - 8 * w) = 8 * k + j := by omega
    have byte : (8 * k + j) / 8 = k := by omega
    have bit : (8 * k + j) % 8 = j := by omega
    have above : ¬ W - 8 * w + 8 * k + j < W - 8 * w := by omega
    rw [packSlot_getLsbD, place, sampleOfBytes_getLsbD bs (by omega), byte, bit]
    simp [inside, above, hk]
  · rw [packSlot_getLsbD]
    rcases outside with below | beyond
    · simp [below]
    · by_cases inside : j < 32
      · have past : bs.length ≤ (j - (W - 8 * w)) / 8 := by omega
        rw [sampleOfBytes_getLsbD bs (by omega), List.getD_eq_default _ _ past]
        simp
      · simp [inside]

end Sys2Proof.Machine

/-! ## The marker words and the composed frame at a frame event (R92, R95, R110, R112, R114, R116, R117) -/

namespace Sys2Proof.Machine

/-! ### What the event finds -/

section
variable {s u : State} {c : Instr} {d : DomainId} {rx : RxFrame}

theorem Timed.owners {t : State} (h : Timed s t) : t.owners = s.owners := (congrArg State.owners h).trans rfl

/-- The event finds the frame number and the frame's shape as they stood before the command. -/
theorem EventFound.timing (h : EventFound c d rx s u) (makes : s.makesFrameEvent c d rx) :
    (u.domain d).counter = (s.domain d).counter ∧ (u.domain d).slots = (s.domain d).slots ∧
      (u.domain d).width = (s.domain d).width := by
  rcases makes with takes | locks
  · rw [h.takes takes]
    exact ⟨rfl, rfl, rfl⟩
  · rw [(h.locks locks).2]
    exact ⟨rfl, rfl, rfl⟩

end

/-! ### The marker words (R117) -/

theorem Lane.takeUp_current (ln : Lane) (n : FrameNo) :
    (ln.takeUp n).current = if n.toNat % 32 = 0 then ln.staged.getD ln.current else ln.current := by
  unfold Lane.takeUp
  split
  · cases h : ln.staged <;> rfl
  · rfl

theorem Lane.takeUp_staged (ln : Lane) (n : FrameNo) :
    (ln.takeUp n).staged = if n.toNat % 32 = 0 then none else ln.staged := by
  unfold Lane.takeUp
  split
  · cases h : ln.staged
    · exact h
    · rfl
  · rfl

section
variable {s u : State} {c : Instr} {d : DomainId} {rx : RxFrame} {l : LaneNo}

/-- A frame event leaves a lane of its domain the marker words that taking up makes, and the frame composed with them. -/
theorem frameEvent_lane_words (hl : (s.lane l).domain = d) :
    ((s.frameEvent d rx).lane l).current = ((s.lane l).takeUp (s.domain d).counter).current ∧
      ((s.frameEvent d rx).lane l).staged = ((s.lane l).takeUp (s.domain d).counter).staged ∧
      ((s.frameEvent d rx).lane l).txFrame =
        s.composeFrame (s.domain d) l ((s.lane l).takeUp (s.domain d).counter) := by
  obtain ⟨ln, remarks, -, lane⟩ := frameEvent_lane (rx := rx) hl
  obtain ⟨_, _, _, rest⟩ := remarks.rest
  rw [lane, rest]
  exact ⟨rfl, rfl, rfl⟩

/-- Before the event a lane's marker words are those of the state the command began in. -/
theorem EventFound.takeUp (h : EventFound c d rx s u) (makes : s.makesFrameEvent c d rx) :
    ((u.lane l).takeUp (u.domain d).counter).current = ((s.lane l).takeUp (s.domain d).counter).current ∧
      ((u.lane l).takeUp (u.domain d).counter).staged = ((s.lane l).takeUp (s.domain d).counter).staged := by
  obtain ⟨_, same⟩ := h.lane_eq l
  simp only [Lane.takeUp_current, Lane.takeUp_staged, (h.timing makes).1, same, and_self]

/-- A frame event changes the current word of a lane of its own domain alone, at N mod 32 = 0 (R117). -/
theorem frameEvent_current_moves (moves : ((s.frameEvent d rx).lane l).current ≠ (s.lane l).current) :
    (s.lane l).domain = d ∧ (s.domain d).counter.toNat % 32 = 0 := by
  have hl : (s.lane l).domain = d := by
    by_contra other
    rw [frameEvent_lane_ne other] at moves
    exact moves rfl
  refine ⟨hl, ?_⟩
  by_contra inside
  rw [(frameEvent_lane_words hl).1, Lane.takeUp_current, if_neg inside] at moves
  exact moves rfl

theorem modLane_current {k : LaneNo} {f : Lane → Lane} (hf : (f (s.lane k)).current = (s.lane k).current) :
    ((s.modLane k f).lane l).current = (s.lane l).current := by
  rw [State.lane_modLane]
  split
  · next e => rw [hf, e]
  · rfl

/-- A lane that falls silent keeps its current word (R90, R93, R94). -/
theorem current_of_silenced {t : State}
    (h : t.lane l = if (s.lane l).domain = d then (s.lane l).silent else s.lane l) :
    (t.lane l).current = (s.lane l).current := by
  rw [h]
  split <;> rfl

theorem handOn_current (x : Claim) : ((s.handOn x).lane l).current = (s.lane l).current := by
  cases x with
  | marker k => exact modLane_current rfl
  | domainEvent e => exact congrArg Lane.current (State.modDomain_lane s e _ l)
  | _ => rfl

/-- Of what `Retimed` lists, frame events and full resets alone change a current word (R117). -/
theorem Retimed.current {t : State} (h : Retimed c s t) (moves : (t.lane l).current ≠ (s.lane l).current) :
    c = .resetFull ∨ (∃ lv b, c = .pinReset lv b) ∨
      (s.domain (s.lane l).domain).counter.toNat % 32 = 0 ∧
        ((∃ bits duration rx, c = .frameClosed (s.lane l).domain bits duration rx) ∨
          ∃ rx, c = .generatorBoundary (s.lane l).domain rx) := by
  have noted : ∀ (e : DomainId) (f : Domain → Domain), ((s.modDomain e f).lane l).current = (s.lane l).current := fun e f =>
    congrArg Lane.current (State.modDomain_lane s e f l)
  cases h with
  | still => exact absurd rfl moves
  | reset full => exact full.imp_right .inl
  | configures _ => exact absurd (current_of_silenced (setDomain_lane ..)) moves
  | wires _ => exact absurd (modLane_current rfl) moves
  | stages => exact absurd (modLane_current rfl) moves
  | handsOn => exact absurd (handOn_current _) moves
  | opens _ => exact absurd (noted ..) moves
  | @advances _ e bits duration rx _ _ =>
    rw [← noted e fun dm => { dm with lastGood := some duration }] at moves
    obtain ⟨here, multiple⟩ := frameEvent_current_moves moves
    rw [State.modDomain_lane] at here
    rw [State.domain_modDomain_same] at multiple
    subst here
    exact .inr (.inr ⟨multiple, .inl ⟨_, _, _, rfl⟩⟩)
  | counts _ _ _ => exact absurd (noted ..) moves
  | @locks _ e bits duration rx _ _ =>
    have lane := lockedBy_lane s e duration l
    have kept : ((s.lockedBy e duration).lane l).current = (s.lane l).current ∧
        ((s.lockedBy e duration).lane l).domain = (s.lane l).domain := by
      rw [lane]
      split <;> exact ⟨rfl, rfl⟩
    rw [← kept.1] at moves
    obtain ⟨here, multiple⟩ := frameEvent_current_moves moves
    rw [kept.2] at here
    rw [lockedBy_domain] at multiple
    subst here
    exact .inr (.inr ⟨multiple, .inl ⟨_, _, _, rfl⟩⟩)
  | loses _ => exact absurd (current_of_silenced (afterLoss_lane ..)) moves
  | ends => exact absurd (noted ..) moves
  | lapses _ => exact absurd (noted ..) moves
  | ticks _ =>
    obtain ⟨here, multiple⟩ := frameEvent_current_moves moves
    subst here
    exact .inr (.inr ⟨multiple, .inr ⟨_, rfl⟩⟩)

end

/-- Settles O44. -/
theorem markerWordTakenUp : Obligations.MarkerWordTakenUp := by
  refine ⟨fun s c d rx l makes hl => ?_, fun c s t l h moves => ?_⟩
  · obtain ⟨u, found⟩ := makesFrameEvent_found makes
    obtain ⟨_, same⟩ := found.lane_eq l
    obtain ⟨current, staged, -⟩ := frameEvent_lane_words (s := u) (rx := rx) (l := l) (d := d) (by rw [same]; exact hl)
    obtain ⟨current', staged'⟩ := found.takeUp (l := l) makes
    rw [current', Lane.takeUp_current] at current
    rw [staged', Lane.takeUp_staged] at staged
    refine ⟨_, found.ran, fun w multiple word => ?_, fun idle => ?_⟩
    · rw [current, staged, if_pos multiple, if_pos multiple, word]
      exact ⟨rfl, rfl⟩
    · rw [current, staged]
      rcases idle with inside | unstaged
      · exact ⟨if_neg inside, if_neg inside⟩
      · rw [unstaged]
        exact ⟨ite_self _, ite_self _⟩
  · obtain ⟨u, v, from_s, acts, to_t⟩ := exec_retimes h
    rw [lane_of_clocking to_t, ← lane_of_clocking from_s] at moves
    have settled := acts.current moves
    rw [lane_of_clocking from_s, domain_of_clocking from_s] at settled
    exact settled

/-! ### One slot (R112, R114) -/

section
variable {s u : State} {W : Nat} {l : LaneNo} {k : SlotNo}

/-- What an owner gives is its entry at frame N, by R112. -/
theorem entrySlot_eq (s : State) (W : Nat) (i : StreamNo) (l : LaneNo) (k : SlotNo) :
    s.entrySlot W i l k = (s.stream i).ring.head?.map (s.entryValue W i l k) := by
  unfold State.entrySlot
  split <;> next h => rw [h]; rfl

/-- An owner that gives nothing has an empty ring. -/
theorem ownerSlot_eq_none {o : Option StreamNo} :
    s.ownerSlot W o l k = none ↔ ∀ i, o = some i → (s.stream i).ring = [] := by
  cases o with
  | none => simp [State.ownerSlot]
  | some i => simp [State.ownerSlot, entrySlot_eq]

theorem ownerSlot_of_entry {o : Option StreamNo} {i : StreamNo} {e : RingEntry} (ho : o = some i)
    (he : (s.stream i).ring.head? = some e) : s.ownerSlot W o l k = some (s.entryValue W i l k e) := by
  rw [ho, State.ownerSlot, entrySlot_eq, he]
  rfl

/-- The slot that the model composes is the one that R114 describes. -/
theorem composeSlot_from (s : State) (W : Nat) (l : LaneNo) (k : SlotNo) : s.SlotFrom W l k (s.composeSlot W l k) where
  overlay i e ho he := by rw [State.composeSlot, ownerSlot_of_entry ho he]
  base empty i e ho he := by rw [State.composeSlot, ownerSlot_eq_none.mpr empty, ownerSlot_of_entry ho he]
  silence empty empty' := by rw [State.composeSlot, ownerSlot_eq_none.mpr empty, ownerSlot_eq_none.mpr empty']

/-- Slots are composed from the owners and the streams alone. -/
theorem composeSlot_congr (owners : u.owners = s.owners) (streams : ∀ i, u.stream i = s.stream i) (W : Nat) (l : LaneNo)
    (k : SlotNo) : u.composeSlot W l k = s.composeSlot W l k := by
  have entry : ∀ o, u.ownerSlot W o l k = s.ownerSlot W o l k := fun o => by
    cases o with
    | none => rfl
    | some i => rw [State.ownerSlot, State.ownerSlot, State.entrySlot, streams]; rfl
  rw [State.composeSlot, State.composeSlot, entry, entry, State.txOverlay, State.txBase, owners]
  rfl

end

/-! ### The whole frame (R110, R116) -/

/-- The slots of a format stand in their order. -/
theorem slotNumbers_getElem? {n : Nat} (hn : n ∈ [2, 4, 8]) {k k' : SlotNo} (h : (slotNumbers n)[k.val]? = some k') : k' = k := by
  simp only [List.mem_cons, List.not_mem_nil, or_false] at hn
  rcases hn with rfl | rfl | rfl <;> revert k k' <;> decide

/-- The marker bit takes the place of bit 0 of slot 0 (R116). -/
theorem setMarkerBit_zero {b : Bool} {xs : List Word32} {x : Word32} (h : (setMarkerBit b xs)[0]? = some x) :
    ∃ y, xs[0]? = some y ∧ ∀ j, x.getLsbD j = if j = 0 then b else y.getLsbD j := by
  cases xs with
  | nil => cases h
  | cons y rest =>
    obtain rfl : (y &&& ~~~(1 : Word32)) ||| (if b then 1 else 0) = x := Option.some.inj h
    refine ⟨y, rfl, fun j => ?_⟩
    have one : (1 : Word32).getLsbD j = decide (j = 0) := by simp [BitVec.getLsbD_one]
    have placed : (if b then (1 : Word32) else 0).getLsbD j = (b && decide (j = 0)) := by
      cases b
      · simp
      · rw [if_pos rfl, one, Bool.true_and]
    have inside : y.getLsbD j = (y.getLsbD j && decide (j < 32)) := by
      cases bit : y.getLsbD j
      · rfl
      · simp [BitVec.lt_of_getLsbD bit]
    rw [BitVec.getLsbD_or, BitVec.getLsbD_and, BitVec.getLsbD_not, one, placed, inside]
    by_cases zero : j = 0 <;> simp [zero]

/-- The other slots keep what they hold. -/
theorem setMarkerBit_succ (b : Bool) (xs : List Word32) {k : Nat} (h : k ≠ 0) : (setMarkerBit b xs)[k]? = xs[k]? := by
  cases xs with
  | nil => rfl
  | cons y rest =>
    cases k with
    | zero => exact absurd rfl h
    | succ k => rfl

section
variable {s : State} {dom : Domain} {l : LaneNo} {ln : Lane}

/-- The slots that a lane composes before the marker bit is placed (R114). -/
def State.slotsOf (s : State) (dom : Domain) (l : LaneNo) : List Word32 :=
  (slotNumbers dom.slots).map fun k => s.composeSlot dom.width l k

theorem slotsOf_from (slots : dom.slots ∈ [2, 4, 8]) {k : SlotNo} {x : Word32} (h : (s.slotsOf dom l)[k.val]? = some x) :
    s.SlotFrom dom.width l k x := by
  rw [State.slotsOf, List.getElem?_map, Option.map_eq_some_iff] at h
  obtain ⟨k', place, rfl⟩ := h
  rw [slotNumbers_getElem? slots place]
  exact composeSlot_from s dom.width l k

theorem composeFrame_enabled (on : ln.txEnable = true) : s.composeFrame dom l ln =
    some (if ln.txMarker then setMarkerBit (markerBit ln.current dom.counter) (s.slotsOf dom l) else s.slotsOf dom l) :=
  if_pos on

end

section
variable {s u : State} {c : Instr} {d : DomainId} {rx : RxFrame} {l : LaneNo}

/-- The frame that an enabled lane begins to send, read off the state before the command (R110, R114, R116, R117). -/
theorem EventFound.composes (h : EventFound c d rx s u) (makes : s.makesFrameEvent c d rx) (hl : (s.lane l).domain = d)
    (enabled : (s.lane l).txEnable = true) : ((u.frameEvent d rx).lane l).txFrame =
      some (if (s.lane l).txMarker then
        setMarkerBit (markerBit ((s.lane l).takeUp (s.domain d).counter).current (s.domain d).counter) (s.slotsOf (s.domain d) l)
      else s.slotsOf (s.domain d) l) := by
  obtain ⟨_, same⟩ := h.lane_eq l
  obtain ⟨counter, count, width⟩ := h.timing makes
  obtain ⟨_, _, taken⟩ := (u.lane l).takeUp_eq (u.domain d).counter
  have flags : ((u.lane l).takeUp (u.domain d).counter).txEnable = (s.lane l).txEnable ∧
      ((u.lane l).takeUp (u.domain d).counter).txMarker = (s.lane l).txMarker := by
    rw [taken, same]
    exact ⟨rfl, rfl⟩
  have slotsOf : u.slotsOf (u.domain d) l = s.slotsOf (s.domain d) l := by
    simp only [State.slotsOf, count, width, composeSlot_congr h.timed.owners h.timed.stream]
  rw [(frameEvent_lane_words (by rw [same]; exact hl)).2.2, composeFrame_enabled (flags.1.trans enabled), flags.2,
    (h.takeUp makes).1, counter, slotsOf]

end

/-- Settles O42. -/
theorem slotComposition : Obligations.SlotComposition := by
  intro s c d rx l makes hl enabled slots
  obtain ⟨u, found⟩ := makesFrameEvent_found makes
  have length : (s.slotsOf (s.domain d) l).length = (s.domain d).slots := by
    rw [State.slotsOf, List.length_map, slotNumbers_length slots]
  refine ⟨_, _, found.ran, found.composes makes hl enabled, ?_, fun k x place => ?_⟩
  · rw [apply_ite List.length, setMarkerBit_length, ite_self, length]
  · intro N word
    refine ⟨fun plain => slotsOf_from slots ?_, fun marked zero => ?_⟩
    · rcases plain with unmarked | later
      · rw [← place, unmarked]
        rfl
      · rw [apply_ite (fun xs : List Word32 => xs[k.val]?), setMarkerBit_succ _ _ (fun e => later (Fin.ext e)), ite_self] at place
        exact place
    · subst zero
      rw [if_pos marked] at place
      obtain ⟨y, source, bits⟩ := setMarkerBit_zero place
      refine ⟨y, slotsOf_from slots source, fun j => ?_⟩
      rw [bits, markerBit, Lane.takeUp_current]

end Sys2Proof.Machine

/-! ## Received markers at a frame event (R119) -/

namespace Sys2Proof.Machine

/-! ### One marker bit -/

section
variable {f : FrameNo} {b : Bool} {o : Option Assembly} {a : Assembly}

/-- The block that frame `f` lies in: F div 32 (R119). -/
def blockOf (f : FrameNo) : BitVec 27 := (f >>> 5).setWidth 27

/-- The marker bit of frame `f` in its place of the word, 31 - (F mod 32) (R119). -/
def placedBit (f : FrameNo) (b : Bool) : Word32 := if b then 1 <<< (31 - f.toNat % 32) else 0

theorem blockOf_eq (f : FrameNo) : blockOf f = BitVec.ofNat 27 (f.toNat / 32) := by
  refine BitVec.eq_of_toNat_eq ?_
  rw [blockOf, BitVec.toNat_setWidth, BitVec.toNat_ushiftRight, BitVec.toNat_ofNat, Nat.shiftRight_eq_div_pow]

theorem stepAssembly_begins (h : f.toNat % 32 = 0) :
    stepAssembly o f b = (some { block := blockOf f, count := 1, word := placedBit f b }, none) :=
  if_pos h

/-- Behind the first frame of a block the assembly decides. -/
theorem stepAssembly_some (h : f.toNat % 32 ≠ 0) : stepAssembly (some a) f b =
    if a.block = blockOf f ∧ a.count = f.toNat % 32 then
      if a.count + 1 = 32 then (none, some (a.word ||| placedBit f b))
      else (some { a with count := a.count + 1, word := a.word ||| placedBit f b }, none)
    else (none, none) :=
  if_neg h

theorem stepAssembly_continues (h : f.toNat % 32 ≠ 0) (block : a.block = blockOf f) (count : a.count = f.toNat % 32)
    (short : f.toNat % 32 < 31) : stepAssembly (some a) f b =
      (some { block := blockOf f, count := f.toNat % 32 + 1, word := a.word ||| placedBit f b }, none) := by
  rw [stepAssembly_some h, if_pos ⟨block, count⟩, if_neg (by omega), block, count]

theorem stepAssembly_completes (block : a.block = blockOf f) (count : a.count = 31) (last : f.toNat % 32 = 31) :
    stepAssembly (some a) f b = (none, some (a.word ||| placedBit f b)) := by
  rw [stepAssembly_some (by omega), if_pos ⟨block, count.trans last.symm⟩, if_pos (by omega)]

theorem stepAssembly_breaks (h : f.toNat % 32 ≠ 0)
    (other : ∀ a, o = some a → a.block ≠ blockOf f ∨ a.count ≠ f.toNat % 32) : stepAssembly o f b = (none, none) := by
  cases o with
  | none => exact if_neg h
  | some a =>
    rw [stepAssembly_some h]
    exact if_neg fun ⟨block, count⟩ => (other a rfl).elim (· block) (· count)

end

/-! ### The lane's item -/

section
variable {s : State} {l : LaneNo} {W : Nat} {rx : RxFrame} {f : FrameNo} {o : Option Assembly} {w : Word32}

/-- The marker bit of lane `l` in the frame on the receive lines: the last bit of slot 0 (R119). -/
def receivedBit (rx : RxFrame) (W : Nat) (l : LaneNo) : Bool := (rxSlot rx W l 0).getLsbD 0

/-- With 32-bit slots the last bit of slot 0 is the thirty-second level sampled. -/
theorem receivedBit_wide (rx : RxFrame) (l : LaneNo) : receivedBit rx 32 l = (rx.get l).getLsbD 224 := by
  simp [receivedBit, rxSlot, lowBits]

/-- A bit that completes no word changes the assembly alone. -/
theorem laneEvent_collects (h : stepAssembly (s.lane l).assembly f (receivedBit rx W l) = (o, none)) :
    (s.laneEvent l W rx f).lane l = { s.lane l with assembly := o } := by
  rw [receivedBit] at h
  simp only [State.laneEvent, h, State.lane_modLane_same]

/-- A completed word that was the last reported one changes nothing more. -/
theorem laneEvent_repeats (h : stepAssembly (s.lane l).assembly f (receivedBit rx W l) = (o, some w))
    (reported : (s.lane l).lastReported = some w) : (s.laneEvent l W rx f).lane l = { s.lane l with assembly := o } := by
  rw [receivedBit] at h
  simp only [State.laneEvent, h, if_pos reported, State.lane_modLane_same]

/-- A completed word that differs from the last reported one becomes it, with a MARKER claim pending. -/
theorem laneEvent_reports (h : stepAssembly (s.lane l).assembly f (receivedBit rx W l) = (o, some w))
    (differs : (s.lane l).lastReported ≠ some w) : (s.laneEvent l W rx f).lane l =
        { s.lane l with assembly := o, lastReported := some w, eventWord := some w } ∧
      Claim.marker l ∈ (s.laneEvent l W rx f).claims := by
  rw [receivedBit] at h
  simp only [State.laneEvent, h, if_neg differs, State.raiseOnce_lane, State.lane_modLane_same]
  exact ⟨trivial, (State.mem_raiseOnce ..).mpr (.inr rfl)⟩

end

/-! ### The event around the item -/

section
variable {s : State} {c : Instr} {d : DomainId} {l : LaneNo} {rx : RxFrame}

/-- The lane's item finds it as it was sent, and the rest of the frame event begins gathering alone and keeps the claims. -/
theorem frameEvent_lane_item (item : Item.lane l ∈ s.items d) : ∃ (u : State) (g : Bool), u.lane l = s.laneSent d l ∧
    (s.frameEvent d rx).lane l =
      { (u.laneEvent l (s.domain d).width rx ((s.domain d).counter - 1)).lane l with gathering := g } ∧
    (u.laneEvent l (s.domain d).width rx ((s.domain d).counter - 1)).claims ⊆ (s.frameEvent d rx).claims := by
  obtain ⟨-, hl, -⟩ := mem_items_lane.mp item
  have nodup : (s.order d).Nodup := (sortRanked_perm _ _).nodup_iff.mpr (items_nodup s d)
  obtain ⟨front, back, split⟩ := List.append_of_mem (mem_order.mpr item)
  rw [split] at nodup
  obtain ⟨-, tail, apart⟩ := List.nodup_append.mp nodup
  have ahead : (front.foldl (State.itemEvent (s.domain d) rx) (s.sent d)).lane l = s.laneSent d l := by
    rw [foldl_itemEvent_lane_ne fun e => apart _ e _ List.mem_cons_self rfl, sent_lane, if_pos hl]
  have behind := foldl_itemEvent_lane_ne (s := State.itemEvent (s.domain d) rx
    (front.foldl (State.itemEvent (s.domain d) rx) (s.sent d)) (.lane l)) (dom := s.domain d) (rx := rx) (List.nodup_cons.mp tail).1
  have later := EventScope.foldl_itemEvent (P := fun _ => True) (dom := s.domain d) (rx := rx) (xs := back) (fun _ _ => trivial)
    (State.itemEvent (s.domain d) rx (front.foldl (State.itemEvent (s.domain d) rx) (s.sent d)) (.lane l))
  rw [frameEvent_eq, split, List.foldl_append, List.foldl_cons, advanced_lane, behind]
  have claims := (later.trans (.advanced _ d)).claims.subset
  split
  · exact ⟨_, _, ahead, rfl, claims⟩
  · exact ⟨_, _, ahead, rfl, claims⟩

/-- At an event of a LOCKED domain that delivers a frame, a lane that collects marker bits is given the bit of its part of the
frame, its assembly and its reported words as they stood (R119). -/
theorem takesFrameEvent_lane_item (hc : s.takesFrameEvent c d rx) (delivers : (s.domain d).delivers = true)
    (hl : (s.lane l).domain = d) (receives : (s.lane l).rxEnable = true) (marked : (s.lane l).rxMarker = true)
    (gathers : (s.lane l).gathering = true) : ∃ (t u : State) (g : Bool), exec c s = .next t ∧
      u.lane l = { s.lane l with
        staged := (u.lane l).staged, current := (u.lane l).current, txFrame := (u.lane l).txFrame } ∧
      t.lane l = { (u.laneEvent l (s.domain d).width rx ((s.domain d).counter - 1)).lane l with gathering := g } ∧
      (u.laneEvent l (s.domain d).width rx ((s.domain d).counter - 1)).claims ⊆ t.claims := by
  obtain ⟨good, ran⟩ := takesFrameEvent_runs hc
  have item : Item.lane l ∈ (s.modDomain d fun dm => { dm with lastGood := good }).items d := by
    rw [mem_items_lane, State.domain_modDomain_same, State.modDomain_lane]
    exact ⟨delivers, hl, receives, marked, gathers⟩
  obtain ⟨u, g, found, lane, claims⟩ := frameEvent_lane_item (rx := rx) item
  obtain ⟨_, _, sent⟩ := laneSent_eq (s.modDomain d fun dm => { dm with lastGood := good }) d l
  rw [State.domain_modDomain_same] at lane claims
  refine ⟨_, u, g, ran, ?_, lane, claims⟩
  rw [found, sent, State.domain_modDomain_same, State.modDomain_lane]
  simp only [delivers, if_true]

end

/-- Settles O45. -/
theorem receivedMarkerAssembled : Obligations.ReceivedMarkerAssembled := by
  intro s c d rx l hc delivers wide hl receives marked gathers F r block bit placed
  obtain ⟨t, u, g, ran, found, lane, claims⟩ := takesFrameEvent_lane_item hc delivers hl receives marked gathers
  rw [wide] at lane claims
  have assembly : (u.lane l).assembly = (s.lane l).assembly := by rw [found]
  have reported : (u.lane l).lastReported = (s.lane l).lastReported := by rw [found]
  have word : (u.lane l).eventWord = (s.lane l).eventWord := by rw [found]
  have here : block = blockOf F := (blockOf_eq F).symm
  have taken : placed = placedBit F (receivedBit rx 32 l) := by rw [receivedBit_wide]; rfl
  have collects : ∀ {o}, stepAssembly (s.lane l).assembly F (receivedBit rx 32 l) = (o, none) →
      (t.lane l).assembly = o ∧ (t.lane l).lastReported = (s.lane l).lastReported ∧
        (t.lane l).eventWord = (s.lane l).eventWord := fun step => by
    rw [lane, laneEvent_collects (by rw [assembly]; exact step)]
    exact ⟨rfl, reported, word⟩
  rw [here, taken]
  refine ⟨t, ran, fun first => collects (stepAssembly_begins first), fun a later given same count short => ?_,
    fun later other => collects (stepAssembly_breaks later other), fun a given same count last => ?_⟩
  · exact collects (by rw [given]; exact stepAssembly_continues later same count short)
  · have step : stepAssembly (u.lane l).assembly F (receivedBit rx 32 l) =
        (none, some (a.word ||| placedBit F (receivedBit rx 32 l))) := by
      rw [assembly, given]
      exact stepAssembly_completes same count last
    by_cases known : (s.lane l).lastReported = some (a.word ||| placedBit F (receivedBit rx 32 l))
    · rw [lane, laneEvent_repeats step (by rw [reported]; exact known)]
      exact ⟨rfl, fun _ => ⟨reported, word⟩, fun differs => absurd known differs⟩
    · obtain ⟨settled, claim⟩ := laneEvent_reports step (by rw [reported]; exact known)
      rw [lane, settled]
      exact ⟨rfl, fun same => absurd same known, fun _ => ⟨rfl, rfl, claims claim⟩⟩

end Sys2Proof.Machine

/-! ## The Override Unit: what each event does to it (Table 7-2, R124 to R129, R132, R133) -/

namespace Sys2Proof.Machine

/-! ### The two edges and CLEAR OVERRIDE (R124, R125, R126, R127, R129) -/

theorem LineLevel.eq_deasserted {lv : LineLevel} (h : lv ≠ .asserted) : lv = .deasserted := by
  cases lv with
  | asserted => exact absurd rfl h
  | deasserted => rfl

section
variable {s : State} {r : Request} {rest : List Request}

theorem exec_assertionEdge_taken (h : s.ovr.level = .deasserted) : exec .assertionEdge s =
    .next (({ s.muteInFlight with ovr := s.ovr.edge .asserted true } : State).raiseOnce .overrideEvent) := by
  change execAssertionEdge s = _
  rw [execAssertionEdge, if_neg (by rw [h]; decide)]

theorem exec_deassertionEdge_taken (h : s.ovr.level = .asserted) : exec .deassertionEdge s =
    .next (({ s with ovr := s.ovr.edge .deasserted s.ovr.latch } : State).raiseOnce .overrideEvent) := by
  change execDeassertionEdge s = _
  rw [execDeassertionEdge, if_neg (by rw [h]; decide)]

/-- The line has no assertion edge while it is asserted (R124; log entry 21). -/
theorem exec_assertionEdge_standing (h : s.ovr.level = .asserted) : exec .assertionEdge s = .next s := by
  change execAssertionEdge s = _
  rw [execAssertionEdge, if_pos h]

/-- The line has no deassertion edge while it is deasserted (R124; log entry 21). -/
theorem exec_deassertionEdge_standing (h : s.ovr.level = .deasserted) : exec .deassertionEdge s = .next s := by
  change execDeassertionEdge s = _
  rw [execDeassertionEdge, if_pos h]

/-- CLEAR OVERRIDE has no fields, and its one check reads the line level (R129). -/
theorem exec_clearOverride_eq (hin : s.port.inbound = r :: rest) (hk : r.kind = 0x40) (hp : r.payload = []) :
    exec .clearOverride s = .next (if s.ovr.level = .asserted then s.answered rest r .lineActive .nothing
      else { s with
        ovr := { s.ovr with latch := false, recLatch := false }, port := s.port.answered rest r .ok (.latch false) }) :=
  congrArg Host.Outcome.next (State.takeKind_act hin (by rw [hk]; rfl) rfl (by rw [hp]; rfl))

end

/-- Settles O47. -/
theorem overrideLine : Obligations.OverrideLine := by
  refine ⟨fun s h => ?_, fun s h => ?_, fun s => exec_assertionEdge_standing, fun s => exec_deassertionEdge_standing,
    fun s r rest hin hk hp => ⟨fun h => ?_, fun h => ?_⟩⟩
  · rw [exec_assertionEdge_taken h, raiseOnce_eq]
    rfl
  · rw [exec_deassertionEdge_taken h, raiseOnce_eq]
    rfl
  · rw [exec_clearOverride_eq hin hk hp, if_pos h]
  · rw [exec_clearOverride_eq hin hk hp, if_neg (by rw [h]; decide)]

/-! ### Everything that moves the Override Unit (Table 7-2) -/

/-- Command `c` may turn the Override Unit `o` into `o'`: the rows of Table 7-2, and the full resets (R132). -/
inductive OverrideUnit.Moves (o : OverrideUnit) : Instr → OverrideUnit → Prop
  | stays {c : Instr} : Moves o c o
  | asserts : Moves o .assertionEdge (o.edge .asserted true)
  | releases : Moves o .deassertionEdge (o.edge .deasserted o.latch)
  | clears (released : o.level = .deasserted) : Moves o .clearOverride { o with latch := false, recLatch := false }
  | handsOn : Moves o .conversion { o with edges := 0 }
  | resets : Moves o .resetFull (.afterReset o.level)
  | pinResets (lv : LineLevel) (csnLow : Bool) : Moves o (.pinReset lv csnLow) (.afterReset lv)

namespace OverrideUnit.Moves

section
variable {o o' : OverrideUnit} {c : Instr}

theorem of_eq (h : o' = o) : o.Moves c o' := h ▸ .stays

theorem of_control {s t : State} (h : t.control = s.control) : s.ovr.Moves c t.ovr := of_eq (control_eq_iff.mp h).2.2

/-- R126, R129, R132: what clears a latch that is set. -/
theorem latch_cleared (h : o.Moves c o') (before : o.latch = true) (after : o'.latch = false) :
    c = .clearOverride ∧ o.level = .deasserted ∨ c = .resetFull ∨ ∃ b, c = .pinReset .deasserted b := by
  cases h with
  | stays => exact absurd after (by simp [before])
  | asserts => exact absurd after (by simp [edge])
  | releases => exact absurd after (by simp [edge, before])
  | clears released => exact .inl ⟨rfl, released⟩
  | handsOn => exact absurd after (by simp [before])
  | resets => exact .inr (.inl rfl)
  | pinResets lv b =>
    cases lv with
    | asserted => exact absurd after (by simp [afterReset])
    | deasserted => exact .inr (.inr ⟨b, rfl⟩)

/-- R125, R132: what sets a latch that is clear. -/
theorem latch_set (h : o.Moves c o') (before : o.latch = false) (after : o'.latch = true) :
    c = .assertionEdge ∨ c = .resetFull ∧ o.level = .asserted ∨ ∃ b, c = .pinReset .asserted b := by
  cases h with
  | stays => exact absurd after (by simp [before])
  | asserts => exact .inl rfl
  | releases => exact absurd after (by simp [edge, before])
  | clears released => exact absurd after (by simp)
  | handsOn => exact absurd after (by simp [before])
  | resets =>
    cases level : o.level with
    | asserted => exact .inr (.inl ⟨rfl, rfl⟩)
    | deasserted => exact absurd after (by simp [level, afterReset])
  | pinResets lv b =>
    cases lv with
    | asserted => exact .inr (.inr ⟨b, rfl⟩)
    | deasserted => exact absurd after (by simp [afterReset])

end

end OverrideUnit.Moves

/-! ### Which command moves it -/

section
variable {s t : State} {c : Instr}

/-- Taking a request leaves the Override Unit to the request's own act. -/
theorem takeKind_ovr {k : Kind} {sel : Request → Bool} {act : Request → State → State}
    (hact : ∀ r (u : State), u.ovr.Moves c (act r u).ovr) : s.ovr.Moves c (s.takeKind k sel act).ovr := by
  rcases State.takeKind_cases s k sel act with h | ⟨r, rest, -, -, -, ⟨-, h⟩ | ⟨-, h⟩⟩ <;> rw [h]
  · exact .stays
  · exact .stays
  · exact hact r (s.modPort fun p => { p with inbound := rest })

/-- A request whose act, once its check has passed, leaves the arbiter and the Override Unit alone. -/
theorem takeKind_answer_ovr {α : Type} {k : Kind} {sel : Request → Bool} {check : State → List Byte → Except Status α}
    {act : Request → State → α → State} (hact : ∀ r u x, (act r u x).control = u.control) :
    s.ovr.Moves c (s.takeKind k sel fun r u => u.answer k r (check u r.payload) (act r u)).ovr :=
  takeKind_ovr fun r u => by
    cases check u r.payload with
    | error st => exact .stays
    | ok x => exact .of_control (hact r u x)

/-- R128: the conversion of its own claim alone counts the edges from 0 again. -/
theorem convert_ovr (s : State) (head : Claim) (rest : List Claim) : s.ovr.Moves .conversion (s.convert head rest).ovr := by
  cases head with
  | overrideEvent => exact .handsOn
  | domainEvent d => exact .of_control (modDomain_control { s with claims := rest } d _)
  | done h => exact .stays
  | data x => exact .stays
  | streamEvent i => exact .stays
  | streamDetached i g r => exact .stays
  | marker l => exact .stays

/-- What each command does to the Override Unit; a streams reset does nothing (R133). -/
theorem exec_ovr (h : exec c s = .next t) : s.ovr.Moves c t.ovr := by
  cases c with
  | pinReset ovr csnLow => cases h; exact .pinResets ovr csnLow
  | csnFalling => cases h; split <;> exact .stays
  | endOfExchange sdi =>
    cases h
    split
    · split
      · exact .of_control (endExchange_control s _ sdi)
      · exact .stays
    · exact .stays
  | unknownKind =>
    cases h
    unfold State.takeHead
    split
    · exact .stays
    · split <;> exact .stays
  | identify => cases h; exact takeKind_ovr fun _ _ => .stays
  | status => cases h; exact takeKind_ovr fun _ _ => .stays
  | resetFull => cases h; exact takeKind_ovr fun _ _ => .resets
  | resetStreams => cases h; exact takeKind_ovr fun _ _ => by split <;> exact .stays
  | setDomain => cases h; exact takeKind_answer_ovr fun _ u x => setDomain_control u x.1 x.2
  | queryTime => cases h; exact takeKind_answer_ovr (check := fun _ => checkQueryTime) fun _ _ _ => rfl
  | setLane => cases h; exact takeKind_answer_ovr fun _ _ _ => rfl
  | setMarker => cases h; exact takeKind_answer_ovr (check := fun _ => checkSetMarker) fun _ _ _ => rfl
  | openStream => cases h; exact takeKind_answer_ovr fun _ _ _ => rfl
  | startStream => cases h; exact takeKind_answer_ovr fun _ u i => startStream_control u i
  | stopDrain => cases h; exact takeKind_answer_ovr fun _ u i => drain_control u i
  | stopAbort => cases h; exact takeKind_answer_ovr fun _ u i => abort_control u i
  | closeStream => cases h; exact takeKind_answer_ovr fun _ u i => closeStream_control u i
  | queryStream => cases h; exact takeKind_answer_ovr fun _ _ _ => rfl
  | submit => cases h; exact takeKind_answer_ovr fun r u x => submit_control u x.1 r.payload x.2.1 x.2.2
  | put => cases h; exact takeKind_answer_ovr fun r u x => put_control u x.1 x.2 (putData r.payload)
  | clearOverride =>
    cases h
    refine takeKind_ovr fun _ u => ?_
    split
    · exact .stays
    · next released => exact .clears (LineLevel.eq_deasserted released)
  | setArbitration =>
    cases h
    refine takeKind_ovr fun r u => ?_
    cases checkSetArbitration r.payload with
    | error st => exact .stays
    | ok m => exact .stays
  | grant =>
    cases h
    split
    · exact .stays
    · split
      · exact .stays
      · next i _ => exact .of_eq (grantTo_control s i).2.1
  | completion =>
    cases h
    split
    · exact .stays
    · next m _ =>
      dsimp only
      split
      · exact .stays
      · split
        · exact .of_control (completePlay_control { s with inFlight := none } m)
        · exact .of_control (completeCapture_control { s with inFlight := none } m _)
  | frameClosed d bits duration rx =>
    cases h
    split
    · split
      · split
        · exact .of_control (goodFrameClosed_control s d rx duration)
        · exact .of_control (badFrameClosed_control s d)
      · exact .of_control (modDomain_control s d _)
    · exact .stays
  | lockTimeout d elapsed =>
    cases h
    split
    · exact .of_control (loseLock_control s d false)
    · exact .stays
  | goodRunTimeout d elapsed =>
    cases h
    split
    · exact .of_control (modDomain_control s d _)
    · exact .stays
  | generatorBoundary d rx =>
    cases h
    split
    · exact .of_control (frameEvent_control s d rx)
    · exact .stays
  | assertionEdge =>
    cases h
    split
    · exact .stays
    · rw [State.raiseOnce_ovr]
      exact .asserts
  | deassertionEdge =>
    cases h
    split
    · exact .stays
    · rw [State.raiseOnce_ovr]
      exact .releases
  | conversion =>
    cases h
    split
    · exact .stays
    · split
      · exact convert_ovr s _ _
      · exact .stays

end

/-- Settles O48: of all that can move the Override Unit, only CLEAR OVERRIDE, the assertion edge and the full resets move its
latch. -/
theorem latchChangesOnlyByRule : Obligations.LatchChangesOnlyByRule := fun _ _ _ h =>
  ⟨(exec_ovr h).latch_cleared, (exec_ovr h).latch_set⟩

end Sys2Proof.Machine

/-! ## What the claim list stands for (R23, R103, R121, R128, R134, R136, R142) -/

namespace Sys2Proof.Machine

/-- A stream event record holds something to report (R142). -/
def StreamRecord.reports (r : StreamRecord) : Prop :=
  r.gapStart.isSome = true ∨ r.gapEnd.isSome = true ∨ r.drained = true

/-- A CLOSED stream has an emptied record (R16), and the count of gap frames has its limit (R21). -/
structure Stream.RecordOk (st : Stream) : Prop where
  closed : st.state = .closed → st.record = StreamRecord.empty
  gapFrames : st.record.gapFrames ≤ 65535

/-- The record that a coalescing claim stands for holds something to report (R134); of the other claims this is not said. -/
def State.toReport (s : State) : Claim → Prop
  | .done _ => False
  | .data _ => False
  | .streamEvent i => (s.stream i).record.reports
  | .streamDetached _ _ _ => False
  | .domainEvent d => 1 ≤ (s.domain d).record.transitions
  | .overrideEvent => 1 ≤ s.ovr.edges
  | .marker l => (s.lane l).eventWord.isSome = true

/-- A coalescing claim of whatever kind stands once, and exactly while its record holds something to report. -/
structure State.ReportsOk (s : State) : Prop where
  once : (s.claims.filter Claim.coalesces).Nodup
  stands : ∀ c, c.coalesces = true → (c ∈ s.claims ↔ s.toReport c)
  records : ∀ i, (s.stream i).RecordOk

theorem empty_not_reports : ¬ StreamRecord.empty.reports := by
  simp [StreamRecord.reports, StreamRecord.empty]

theorem claimsOk_iff {s : State} : s.ClaimsOk ↔ s.ReportsOk := by
  constructor
  · intro h
    refine ⟨h.once, fun c hc => ?_, fun i => ⟨fun closed => (h.closed i closed).2, h.gapFrames i⟩⟩
    cases c with
    | done x => cases hc
    | data x => cases hc
    | streamEvent i => exact h.stream i
    | streamDetached i g r => cases hc
    | domainEvent d => exact h.domain d
    | overrideEvent => exact h.override
    | marker l => exact h.marker l
  · intro h
    refine ⟨h.once, h.stands _ rfl, fun d => h.stands _ rfl, fun l => h.stands _ rfl, fun i => h.stands _ rfl,
      fun i closed => ?_, fun i => (h.records i).gapFrames⟩
    have emptied := (h.records i).closed closed
    refine ⟨fun claimed => empty_not_reports ?_, emptied⟩
    rw [← emptied]
    exact (h.stands _ rfl).mp claimed

/-! ### What a change of one part leaves to report -/

section
variable {s t : State} {x : Claim}

/-- Streams, received words, domains and edges as they were. -/
theorem toReport_congr (streams : t.streams = s.streams := by rfl)
    (words : ∀ l, (t.lane l).eventWord = (s.lane l).eventWord := by intro l; rfl) (domA : t.domA = s.domA := by rfl)
    (domB : t.domB = s.domB := by rfl) (edges : t.ovr.edges = s.ovr.edges := by rfl) : t.toReport x ↔ s.toReport x := by
  cases x with
  | domainEvent d => cases d <;> simp only [State.toReport, State.domain, domA, domB]
  | marker l => simp only [State.toReport, words]
  | _ => simp only [State.toReport, State.stream, streams, edges]

theorem toReport_raiseOnce (c : Claim) : (s.raiseOnce c).toReport x ↔ s.toReport x :=
  toReport_congr (by simp) (by simp) (by simp) (by simp) (by simp)

theorem toReport_modStream_ne {i : StreamNo} (f : Stream → Stream) (hx : x ≠ .streamEvent i) :
    (s.modStream i f).toReport x ↔ s.toReport x := by
  cases x with
  | streamEvent j => rw [State.toReport, State.toReport, State.stream_modStream_ne _ _ fun e => hx (congrArg _ e)]
  | _ => simp only [State.toReport, State.modStream_domain, State.modStream_ovr, State.modStream_lane]

theorem toReport_modDomain_ne {d : DomainId} (f : Domain → Domain) (hx : x ≠ .domainEvent d) :
    (s.modDomain d f).toReport x ↔ s.toReport x := by
  cases x with
  | domainEvent e => rw [State.toReport, State.toReport, State.domain_modDomain_ne _ _ fun e => hx (congrArg _ e)]
  | _ => simp only [State.toReport, State.modDomain_stream, State.modDomain_ovr, State.modDomain_lane]

theorem toReport_modLane_ne {l : LaneNo} (f : Lane → Lane) (hx : x ≠ .marker l) :
    (s.modLane l f).toReport x ↔ s.toReport x := by
  cases x with
  | marker k => rw [State.toReport, State.toReport, State.lane_modLane_ne _ _ fun e => hx (congrArg _ e)]
  | _ => simp only [State.toReport, State.modLane_stream, State.modLane_ovr, State.modLane_domain]

theorem toReport_modStream {i : StreamNo} {f : Stream → Stream}
    (hf : (f (s.stream i)).record.reports ↔ (s.stream i).record.reports) : (s.modStream i f).toReport x ↔ s.toReport x := by
  by_cases hx : x = .streamEvent i
  · rw [hx, State.toReport, State.toReport, State.stream_modStream_same, hf]
  · exact toReport_modStream_ne f hx

theorem toReport_modDomain {d : DomainId} {f : Domain → Domain}
    (hf : (f (s.domain d)).record.transitions = (s.domain d).record.transitions) :
    (s.modDomain d f).toReport x ↔ s.toReport x := by
  by_cases hx : x = .domainEvent d
  · rw [hx, State.toReport, State.toReport, State.domain_modDomain_same, hf]
  · exact toReport_modDomain_ne f hx

end

/-! ### Claims that leave, stay and come -/

theorem mem_iff_mem_coalescing {c : Claim} {cs : List Claim} (hc : c.coalesces = true) :
    c ∈ cs ↔ c ∈ cs.filter Claim.coalesces := by
  simp [List.mem_filter, hc]

namespace State.ReportsOk
variable {s t u : State} {c : Claim}

/-- The coalescing claims that `keep` keeps stay in their places with what they stand for, and the records of the others hold
nothing any more. -/
theorem kept (hs : s.ReportsOk) (keep : Claim → Bool)
    (hc : t.claims.filter Claim.coalesces = (s.claims.filter Claim.coalesces).filter keep)
    (hr : ∀ x, x.coalesces = true → (t.toReport x ↔ keep x = true ∧ s.toReport x))
    (hi : ∀ i, (t.stream i).RecordOk) : t.ReportsOk where
  once := hc ▸ hs.once.filter keep
  stands x hx := by
    rw [hr x hx, mem_iff_mem_coalescing hx, hc, List.mem_filter, ← mem_iff_mem_coalescing hx, hs.stands x hx, and_comm]
  records := hi

/-- All the coalescing claims stay. -/
theorem same (hs : s.ReportsOk) (hc : t.claims.filter Claim.coalesces = s.claims.filter Claim.coalesces)
    (hr : ∀ x, t.toReport x ↔ s.toReport x) (hi : ∀ i, (t.stream i).RecordOk) : t.ReportsOk :=
  hs.kept (fun _ => true) (by rw [hc, List.filter_true]) (fun x _ => by rw [hr x]; simp) hi

/-- Claims, streams, received words, domains and edges as they were. -/
theorem of_eq (hs : s.ReportsOk) (claims : t.claims = s.claims := by rfl) (streams : t.streams = s.streams := by rfl)
    (words : ∀ l, (t.lane l).eventWord = (s.lane l).eventWord := by intro l; rfl) (domA : t.domA = s.domA := by rfl)
    (domB : t.domB = s.domB := by rfl) (edges : t.ovr.edges = s.ovr.edges := by rfl) : t.ReportsOk :=
  hs.same (by rw [claims]) (fun _ => toReport_congr streams words domA domB edges) fun i => by
    rw [State.stream, streams]
    exact hs.records i

/-- R136: between `s` and `u` the record of claim `c` is given something to report, and the claim is raised if none is
pending. -/
theorem raised (hs : s.ReportsOk) (claims : u.claims = s.claims) (hc : c.coalesces = true) (held : u.toReport c)
    (others : ∀ x, x ≠ c → (u.toReport x ↔ s.toReport x)) (hi : ∀ i, (u.stream i).RecordOk) :
    (u.raiseOnce c).ReportsOk where
  once := by
    rw [State.raiseOnce_claims, claims]
    split
    · exact hs.once
    · next absent =>
      rw [List.filter_append, List.filter_cons_of_pos hc]
      refine List.nodup_append.mpr ⟨hs.once, List.nodup_singleton c, fun x hx y hy e => absent ?_⟩
      rw [← List.mem_singleton.mp hy, ← e]
      exact List.mem_of_mem_filter hx
  stands x hx := by
    rw [State.mem_raiseOnce, toReport_raiseOnce, claims]
    by_cases e : x = c
    · rw [e]
      exact ⟨fun _ => held, fun _ => .inr rfl⟩
    · rw [others x e, ← hs.stands x hx]
      exact ⟨fun h => h.resolve_right e, .inl⟩
  records i := by
    rw [State.raiseOnce_stream]
    exact hi i

end State.ReportsOk

end Sys2Proof.Machine

/-! ## Steps that only add to the claim list (R134, R136) -/

namespace Sys2Proof.Machine

/-- From `s` to `t` claims only join the tail of the list, each coalescing one with a record that holds something to report;
no stream is closed, and the port stays as it is. -/
structure Logged (s t : State) : Prop where
  port : t.port = s.port
  claims : s.claims <+: t.claims
  opens : ∀ i, (s.stream i).state ≠ .closed → (t.stream i).state ≠ .closed
  keeps : s.ReportsOk → t.ReportsOk

theorem Stream.RecordOk.of_same {a b : Stream} (h : a.RecordOk) (record : b.record = a.record)
    (opens : a.state ≠ .closed → b.state ≠ .closed) : b.RecordOk where
  closed e := record.trans (h.closed (by_contra fun o => opens o e))
  gapFrames := record ▸ h.gapFrames

/-- A stream that is not CLOSED needs its count alone. -/
theorem Stream.RecordOk.of_open {st : Stream} (ho : st.state ≠ .closed) (h : st.record.gapFrames ≤ 65535) : st.RecordOk :=
  ⟨fun e => absurd e ho, h⟩

theorem bump_pos (n : Nat) : 1 ≤ bump n := by
  unfold bump Config.countLimit
  split <;> omega

namespace Logged
variable {s t u : State}

theorem refl (s : State) : Logged s s := ⟨rfl, List.prefix_refl _, fun _ => id, id⟩

theorem trans (a : Logged s t) (b : Logged t u) : Logged s u :=
  ⟨b.port.trans a.port, a.claims.trans b.claims, fun i h => b.opens i (a.opens i h), fun h => b.keeps (a.keeps h)⟩

/-- Port, claims, streams, received words, domains and edges as they were. -/
theorem of_eq (port : t.port = s.port := by rfl) (claims : t.claims = s.claims := by rfl)
    (streams : t.streams = s.streams := by rfl)
    (words : ∀ l, (t.lane l).eventWord = (s.lane l).eventWord := by intro l; rfl) (domA : t.domA = s.domA := by rfl)
    (domB : t.domB = s.domB := by rfl) (edges : t.ovr.edges = s.ovr.edges := by rfl) : Logged s t where
  port := port
  claims := by rw [claims]
  opens i h := by
    rw [State.stream, streams]
    exact h
  keeps hs := hs.of_eq claims streams words domA domB edges

/-! ### One part changes -/

/-- A change of one stream that leaves its record's claim as it is. -/
theorem modStream_at {i : StreamNo} {f : Stream → Stream}
    (hr : (f (s.stream i)).record.reports ↔ (s.stream i).record.reports)
    (hi : (s.stream i).RecordOk → (f (s.stream i)).RecordOk)
    (ho : (s.stream i).state ≠ .closed → (f (s.stream i)).state ≠ .closed) : Logged s (s.modStream i f) where
  port := rfl
  claims := List.prefix_refl _
  opens j h := by
    rw [State.stream_modStream]
    split
    · next e => exact ho (e ▸ h)
    · exact h
  keeps hs := hs.same rfl (fun _ => toReport_modStream hr) fun j => by
    rw [State.stream_modStream]
    split
    · exact hi (hs.records i)
    · exact hs.records j

/-- Each operation that leaves the records alone extends a step at its end. -/
theorem modStream (a : Logged s u) (i : StreamNo) (f : Stream → Stream)
    (hr : ∀ st, (f st).record = st.record := by intro st; rfl)
    (ho : ∀ st, st.state ≠ .closed → (f st).state ≠ .closed := by intro st h; exact h) : Logged s (u.modStream i f) :=
  a.trans (.modStream_at (by rw [hr]) (fun h => h.of_same (hr _) (ho _)) (ho _))

theorem modDesc (a : Logged s u) (h : Handle) (f : Descriptor → Descriptor) : Logged s (u.modDesc h f) :=
  a.trans .of_eq

theorem release (a : Logged s u) (ps : List PageNo) : Logged s (u.release ps) := a.trans .of_eq

theorem voidIf (a : Logged s u) (p : Move → Bool) : Logged s (u.voidIf p) := a.trans .of_eq

theorem modLane (a : Logged s u) (l : LaneNo) (f : Lane → Lane)
    (hf : ∀ ln, (f ln).eventWord = ln.eventWord := by intro ln; rfl) : Logged s (u.modLane l f) := by
  refine a.trans (.of_eq (words := fun k => ?_))
  rw [State.lane_modLane]
  split
  · next e => rw [hf, e]
  · rfl

theorem mapLanesOf (a : Logged s u) (d : DomainId) (f : LaneNo → Lane → Lane)
    (hf : ∀ l ln, (f l ln).eventWord = ln.eventWord := by intro l ln; rfl) : Logged s (u.mapLanesOf d f) := by
  refine a.trans (.of_eq (words := fun k => ?_))
  rw [State.lane_mapLanesOf]
  split
  · rw [hf]
  · rfl

theorem modDomain (a : Logged s u) (d : DomainId) (f : Domain → Domain)
    (hf : ∀ dm, (f dm).record.transitions = dm.record.transitions := by intro dm; rfl) : Logged s (u.modDomain d f) :=
  a.trans
    { port := State.modDomain_port u d f
      claims := by rw [State.modDomain_claims]
      opens := fun i h => by rwa [State.modDomain_stream]
      keeps := fun hs => hs.same (by rw [State.modDomain_claims]) (fun _ => toReport_modDomain (hf _)) fun i => by
        rw [State.modDomain_stream]
        exact hs.records i }

/-! ### Claims are raised -/

/-- DONE and DATA claims stand for no record. -/
theorem raiseAll (a : Logged s u) (cs : List Claim) (hcs : ∀ c ∈ cs, c.coalesces = false) : Logged s (u.raiseAll cs) := by
  have none : cs.filter Claim.coalesces = [] := List.filter_eq_nil_iff.mpr fun c hc => by rw [hcs c hc]; decide
  refine a.trans ⟨rfl, List.prefix_append _ _, fun _ => id, fun hs => hs.same ?_ (fun _ => toReport_congr) hs.records⟩
  rw [State.raiseAll_claims, List.filter_append, none, List.append_nil]

/-- Between `s` and `u` the record of a claim is given something to report, and the claim is raised if none is pending. -/
theorem raises {c : Claim} (port : u.port = s.port) (claims : u.claims = s.claims) (hc : c.coalesces = true)
    (held : u.toReport c) (others : ∀ x, x ≠ c → (u.toReport x ↔ s.toReport x))
    (hi : ∀ i, (s.stream i).RecordOk → (u.stream i).RecordOk)
    (ho : ∀ i, (s.stream i).state ≠ .closed → (u.stream i).state ≠ .closed) : Logged s (u.raiseOnce c) where
  port := (State.raiseOnce_port u c).trans port
  claims := claims ▸ u.claims_prefix_raiseOnce c
  opens i h := by
    rw [State.raiseOnce_stream]
    exact ho i h
  keeps hs := hs.raised claims hc held others fun i => hi i (hs.records i)

/-- R21, R22, R12: an edge or a drain of stream `i`. -/
theorem raiseStream {i : StreamNo} {f : Stream → Stream} (held : (f (s.stream i)).record.reports)
    (hi : (s.stream i).RecordOk → (f (s.stream i)).RecordOk)
    (ho : (s.stream i).state ≠ .closed → (f (s.stream i)).state ≠ .closed) :
    Logged s ((s.modStream i f).raiseOnce (.streamEvent i)) := by
  refine raises rfl rfl rfl ?_ (fun x hx => toReport_modStream_ne f hx) (fun j => ?_) fun j => ?_
  · rw [State.toReport, State.stream_modStream_same]
    exact held
  all_goals
    rw [State.stream_modStream]
    split
    · next e => rwa [e]
    · exact id

/-- R102: a lock transition is counted. -/
theorem lockTransition (a : Logged s u) (d : DomainId) : Logged s (u.lockTransition d) := by
  unfold State.lockTransition State.breakAssemblies
  refine a.trans (raises (by simp) (by simp) rfl ?_ (fun x hx => ?_) (fun i => ?_) fun i => ?_)
  · rw [State.toReport, State.mapLanesOf_domain, State.domain_modDomain_same]
    exact bump_pos _
  · refine Iff.trans ?_ (toReport_modDomain_ne (fun dm => { dm with record := dm.record.transition dm.state dm.counter }) hx)
    refine toReport_congr (words := fun l => ?_)
    rw [State.lane_mapLanesOf]
    split <;> rfl
  · rw [State.mapLanesOf_stream, State.modDomain_stream]
    exact id
  · rw [State.mapLanesOf_stream, State.modDomain_stream]
    exact id

/-- R127: an edge of the override line is counted. -/
theorem overrideEdge (a : Logged s u) (lv : LineLevel) (latch : Bool) :
    Logged s (({ u with ovr := u.ovr.edge lv latch } : State).raiseOnce .overrideEvent) := by
  refine a.trans (raises rfl rfl rfl (bump_pos _) (fun x hx => ?_) (fun _ => id) fun _ => id)
  cases x with
  | overrideEvent => exact absurd rfl hx
  | domainEvent d => cases d <;> rfl
  | _ => rfl

end Logged

end Sys2Proof.Machine

/-! ## The claims that queues, moves and frame events raise (R12, R21, R22, R44, R60, R61, R119) -/

namespace Sys2Proof.Machine

theorem partClaim_plain {d : Descriptor} {h : Handle} : ∀ c ∈ d.partClaim h, c.coalesces = false := by
  intro c hc
  unfold Descriptor.partClaim at hc
  split at hc
  · cases hc
  · split at hc
    · cases hc
    · obtain ⟨p, -, rfl⟩ := List.mem_map.mp hc
      rfl

theorem gapFrame_record (st : Stream) (f : FrameNo) : (st.gapFrame f).state = st.state ∧
    (st.gapFrame f).record.gapFrames = bump st.record.gapFrames ∧
    (st.gapOpen = true → ((st.gapFrame f).record.reports ↔ st.record.reports)) ∧
    (st.gapOpen = false → (st.gapFrame f).record.reports) := by
  unfold Stream.gapFrame
  split
  · next opened => exact ⟨rfl, rfl, fun _ => Iff.rfl, fun shut => absurd opened (by simp [shut])⟩
  · next shut => exact ⟨rfl, rfl, fun opened => absurd opened shut, fun _ => .inl rfl⟩

theorem open_of_moving {st : Stream} (h : st.moving = true) : st.state ≠ .closed := fun e => by
  simp [Stream.moving, e] at h

theorem takeUp_eventWord (ln : Lane) (n : FrameNo) : (ln.takeUp n).eventWord = ln.eventWord := by
  obtain ⟨_, _, taken⟩ := ln.takeUp_eq n
  rw [taken]

namespace Logged
variable {s u : State}

/-! ### Descriptors -/

theorem releaseEntries (a : Logged s u) (h : Handle) (n : Nat) : Logged s (u.releaseEntries h n) := .modDesc (.release a _) h _

theorem resolvePlay (a : Logged s u) (h : Handle) (o : PlayOutcome) (k : Nat) : Logged s (u.resolvePlay h o k) :=
  .releaseEntries (.modDesc a h _) h _

/-- R44, R61: a retirement raises DATA and DONE claims. -/
theorem retire (a : Logged s u) (i : StreamNo) (h : Handle) (o : DoneOutcome) : Logged s (u.retire i h o) := by
  rw [retire_eq]
  refine .raiseAll (.release (.modStream (.modDesc a h _) i _) _) _ fun c hc => ?_
  rcases List.mem_append.mp hc with hc | hc
  · exact partClaim_plain c hc
  · rw [List.mem_singleton.mp hc]
    rfl

theorem retireAll (i : StreamNo) (o : Descriptor → DoneOutcome) (q : List Handle) (s : State) :
    Logged s (State.retireAll i o q s) := by
  induction q generalizing s with
  | nil => exact .refl s
  | cons h q ih => exact (Logged.retire (.refl s) i h _).trans (ih _)

/-- R12: a stream that drains was STOPPING, and its drained flag is reported. -/
theorem drainIfEmpty (a : Logged s u) (i : StreamNo) : Logged s (u.drainIfEmpty i) := by
  unfold State.drainIfEmpty
  split
  · next draining =>
    exact a.trans (.raiseStream (.inr (.inr rfl)) (fun h => .of_open StreamState.noConfusion h.gapFrames)
      fun _ => StreamState.noConfusion)
  · exact a

theorem makeEligible (a : Logged s u) (i : StreamNo) (h : Handle) (ahead : Option Handle) (t : FrameTime) :
    Logged s (u.makeEligible i h ahead t) := by
  unfold State.makeEligible
  split
  · exact .resolvePlay (.modDesc a h _) h _ _
  · unfold State.makeCaptureEligible
    dsimp only
    split
    · exact .modDesc a h _
    · exact .modStream (.modDesc a h _) i _

theorem settleQueue (i : StreamNo) (t : FrameTime) (k : Nat) (s : State) : Logged s (State.settleQueue i t k s) := by
  induction k generalizing s with
  | zero => exact .refl s
  | succ k ih =>
    unfold State.settleQueue
    split
    · exact .refl s
    · split
      · exact (Logged.drainIfEmpty (.retire (.refl s) i _ _) i).trans (ih _)
      · split
        · exact .refl s
        · exact (Logged.makeEligible (.refl s) i _ _ t).trans (ih _)

theorem settleAt (a : Logged s u) (i : StreamNo) (t : FrameTime) : Logged s (u.settleAt i t) := a.trans (.settleQueue i t _ u)

theorem settle (a : Logged s u) (i : StreamNo) : Logged s (u.settle i) := a.settleAt i _

theorem passFilled (a : Logged s u) (h : Handle) : Logged s (u.passFilled h) := by
  unfold State.passFilled State.passPage
  split
  · split
    · exact a
    · rw [State.raiseClaim_eq_raiseAll]
      refine .modDesc (.raiseAll a _ fun c hc => ?_) h _
      rw [List.mem_singleton.mp hc]
      rfl
  · exact a

/-! ### Gap accounting (R21, R22) -/

/-- An edge of a gap in an open stream is reported; a gap that goes on is counted in the record that reports its edge. -/
theorem account (a : Logged s u) {i : StreamNo} (ho : (s.stream i).state ≠ .closed) (c : FrameClass) (f : FrameNo) :
    Logged s (u.account i c f) := by
  have opened := a.opens i ho
  obtain ⟨state, frames, goesOn, begins⟩ := gapFrame_record (u.stream i) f
  have limited : (u.stream i).RecordOk → ((u.stream i).gapFrame f).RecordOk := fun _ =>
    .of_open (state ▸ opened) (frames ▸ bump_le _)
  unfold State.account
  split
  · exact a
  · split
    · dsimp only
      split
      · next gap => exact a.trans (.modStream_at (goesOn gap) limited fun h => state ▸ h)
      · next gap => exact a.trans (.raiseStream (begins (by simpa using gap)) limited fun h => state ▸ h)
    · exact a
  · split
    · exact a.trans (.raiseStream (.inr (.inl rfl)) (fun h => .of_open opened h.gapFrames) id)
    · exact a

/-! ### The items of a frame event -/

theorem playEvent (s : State) (i : StreamNo) (n : FrameNo) (t : FrameTime) : Logged s (s.playEvent i n t) := by
  have commit : ∀ st : Stream, st.commit.record = st.record ∧ st.commit.state = st.state := fun st => by
    unfold Stream.commit
    split <;> exact ⟨rfl, rfl⟩
  unfold State.playEvent
  split
  · next moving =>
    have opened := open_of_moving moving
    split
    · exact .account (.modStream (.refl s) i _ (fun st => (commit st).1) fun st h => (commit st).2 ▸ h) opened _ n
    · split
      · exact .account (.settleAt (.resolvePlay (.voidIf (.refl s) _) _ _ 1) i t) opened _ n
      · exact .account (.refl s) opened _ n
  · exact .modStream (.refl s) i _

theorem assign (a : Logged s u) (i : StreamNo) (h : Handle) (p : Nat) (f : FrameNo) (xs : List Word32) :
    Logged s (u.assign i h p f xs) := by
  unfold State.assign State.overrun
  split
  · exact .modStream (.modStream (.modDesc a h _) i _) i _
  · exact .modStream (.modDesc a h _) i _

theorem offer (i : StreamNo) (t : FrameTime) (f : FrameNo) (xs : List Word32) (k : Nat) (s : State) :
    Logged s (State.offer i t f xs k s).1 := by
  induction k generalizing s with
  | zero => exact .refl s
  | succ k ih =>
    unfold State.offer
    split
    · exact .refl s
    · dsimp only
      split
      · exact (Logged.settleAt (.modStream (.modDesc (.refl s) _ _) i _) i t).trans (ih _)
      · split
        · exact .settleAt (.assign (.modStream (.modDesc (.refl s) _ _) i _) i _ _ f xs) i t
        · dsimp only
          exact .modStream (.modDesc (.refl s) _ _) i _

theorem captureEvent (s : State) (i : StreamNo) (W : Nat) (rx : RxFrame) (f : FrameNo) (t : FrameTime) :
    Logged s (s.captureEvent i W rx f t) := by
  unfold State.captureEvent
  split
  · next moving => exact .account (.offer i t f _ _ s) (open_of_moving moving) _ f
  · exact .refl s

/-- R119: a completed word that is new stands in its record with a MARKER claim pending. -/
theorem laneEvent (s : State) (l : LaneNo) (W : Nat) (rx : RxFrame) (f : FrameNo) : Logged s (s.laneEvent l W rx f) := by
  unfold State.laneEvent
  dsimp only
  split
  · exact .modLane (.refl s) l _
  · next w _ =>
    split
    · exact .modLane (.refl s) l _
    · refine Logged.trans (.modLane (.refl s) l _) (.raises rfl rfl rfl ?_ (fun x hx => toReport_modLane_ne _ hx)
        (fun _ => id) fun _ => id)
      rw [State.toReport, State.lane_modLane_same]
      rfl

theorem itemEvent (dom : Domain) (rx : RxFrame) (s : State) (x : Item) : Logged s (State.itemEvent dom rx s x) := by
  cases x with
  | stream i =>
    simp only [State.itemEvent]
    split
    · exact .playEvent s i _ _
    · split
      · exact .captureEvent s i _ rx _ _
      · exact .refl s
  | lane l => exact .laneEvent s l _ rx _

theorem foldl_itemEvent (dom : Domain) (rx : RxFrame) (xs : List Item) (s : State) :
    Logged s (xs.foldl (State.itemEvent dom rx) s) := by
  induction xs generalizing s with
  | nil => exact .refl s
  | cons x xs ih => exact (Logged.itemEvent dom rx s x).trans (ih _)

/-- The claims of a frame event are those of its items (R97). -/
theorem frameEvent (a : Logged s u) (d : DomainId) (rx : RxFrame) : Logged s (u.frameEvent d rx) := by
  have sent : Logged u (u.sent d) := by
    have transmitted : Logged u (u.transmit d) := .mapLanesOf (.refl u) d _ fun _ ln => takeUp_eventWord ln _
    unfold State.sent
    split
    · exact transmitted
    · exact .mapLanesOf transmitted d _
  have counted : ∀ (v : State) n, Logged v { v with freeCount := n } := fun _ _ =>
    .of_eq
  have advanced : ∀ v : State, Logged v (v.advanced d) := fun v => by
    unfold State.advanced
    exact (Logged.mapLanesOf (.modDomain (.refl v) d _) d _).trans (counted _ _)
  rw [frameEvent_eq]
  exact a.trans ((sent.trans (.foldl_itemEvent _ rx _ _)).trans (advanced _))

/-! ### The domains -/

theorem loseLock (s : State) (d : DomainId) (measuring : Bool) : Logged s (s.loseLock d measuring) := by
  unfold State.loseLock State.stopLanes
  exact .mapLanesOf (.lockTransition (.modDomain (.refl s) d _) d) d _

theorem goodFrameClosed (s : State) (d : DomainId) (duration : Nat) (rx : RxFrame) :
    Logged s (s.goodFrameClosed d duration rx) := by
  have timed : Logged s (s.modDomain d fun dm => { dm with lastGood := some duration }) := .modDomain (.refl s) d _
  unfold State.goodFrameClosed State.gainLock
  dsimp only
  split
  · exact timed.frameEvent d rx
  · exact .refl s
  all_goals
    split
    · exact .frameEvent (.lockTransition (.modDomain timed d _) d) d rx
    · exact .modDomain timed d _

theorem badFrameClosed (s : State) (d : DomainId) : Logged s (s.badFrameClosed d) := by
  unfold State.badFrameClosed
  split
  · exact .loseLock s d true
  · exact .refl s
  all_goals exact .modDomain (.refl s) d _

theorem setDomain (s : State) (d : DomainId) (c : DomainConfig) : Logged s (s.setDomain d c) := by
  have configured : Logged s (((s.modDomain d fun dm => dm.configure c).breakAssemblies d).stopLanes d) :=
    .mapLanesOf (.mapLanesOf (.modDomain (.refl s) d _) d _) d _
  unfold State.setDomain
  dsimp only
  split
  · exact configured.lockTransition d
  · exact configured

/-! ### Streams and moves -/

/-- R9: the record of a CLOSED stream is empty, and an opening leaves it so. -/
theorem openStream {i : StreamNo} (o : Opening) (hi : (s.stream i).state = .closed) : Logged s (s.openStream i o) where
  port := rfl
  claims := List.prefix_refl _
  opens j h := by
    rw [openStream_stream]
    split
    · exact StreamState.noConfusion
    · exact h
  keeps hs := by
    have emptied := (hs.records i).closed hi
    have opened : Logged s (s.modStream i fun st => st.opened o (s.mapDomain o.map)) :=
      .modStream_at (by rw [emptied]; rfl) (fun _ => .of_open StreamState.noConfusion (Nat.zero_le _)) fun h => absurd hi h
    exact (opened.keeps hs).of_eq

theorem startStream (s : State) (i : StreamNo) : Logged s (s.startStream i) := by
  rw [State.startStream_eq]
  exact .settle (.modStream (.refl s) i Stream.started (fun _ => rfl) fun _ _ => StreamState.noConfusion) i

theorem drain (s : State) (i : StreamNo) : Logged s (s.drain i) := by
  have stops := (Logged.refl s).modStream i (fun st => { st with state := .stopping })
    (fun _ => rfl) fun _ _ => StreamState.noConfusion
  unfold State.drain
  split
  · exact stops.drainIfEmpty i
  all_goals exact .refl s

theorem abort (s : State) (i : StreamNo) : Logged s (s.abort i) := by
  have before : Logged s (s.beforeAbort i) := .modStream (.voidIf (.refl s) _) i fun st => { st with backlog := [] }
  rw [State.abort_eq]
  exact .modStream (before.trans (.retireAll i _ _ _)) i _ (fun _ => rfl) fun _ _ => StreamState.noConfusion

theorem submit (s : State) (p : List Byte) (i : StreamNo) (h : Handle) (a : Start) : Logged s (s.submit p i h a) := by
  have listed := (Logged.refl s).modStream i fun st => { st with queue := st.queue ++ [h] }
  have lent : Logged s (s.lend p i h a) := listed.trans .of_eq
  rw [State.submit_eq]
  exact lent.settle i

theorem put (s : State) (i : StreamNo) (h : Handle) (bs : List Byte) : Logged s (s.put i h bs) := by
  have stored : Logged s (s.stored h bs) := .of_eq
  rw [State.put_eq]
  exact stored.settle i

theorem grantTo (s : State) (i : StreamNo) : Logged s (s.grantTo i) := by
  unfold State.grantTo State.grantPlay State.grantCapture
  split <;> split
  · exact .refl s
  · exact .of_eq
  · exact .refl s
  · next e rest _ =>
    have taken := (Logged.refl s).modStream i fun st => { st with backlog := rest }
    exact taken.trans .of_eq

theorem completePlay (s : State) (m : Move) : Logged s (s.completePlay m) := by
  have placed : Logged s (s.placed m) := by
    unfold State.placed
    exact .resolvePlay (.modDesc (.modStream (.refl s) m.stream _) m.handle _) m.handle _ 1
  rw [completePlay_eq]
  exact placed.settle m.stream

theorem completeCapture (s : State) (m : Move) (k : EntryKind) : Logged s (s.completeCapture m k) := by
  have written : Logged s (s.written m k) := .of_eq
  rw [completeCapture_eq]
  exact (written.passFilled m.handle).settle m.stream

end Logged

end Sys2Proof.Machine

/-! ## Claims that leave the list: conversion, CLOSE and the resets (R16, R132, R137, R139, R142, R149) -/

namespace Sys2Proof.Machine

section
variable {s : State} {x c : Claim}

/-! ### Conversion (R139, R142) -/

/-- A conversion empties the record of its claim, and no other. -/
theorem handOn_toReport (hx : x.coalesces = true) : (s.handOn c).toReport x ↔ x ≠ c ∧ s.toReport x := by
  by_cases e : x = c
  · subst e
    refine iff_of_false (fun reports => ?_) fun h => h.1 rfl
    cases x with
    | done h => cases hx
    | data y => cases hx
    | streamEvent i => exact empty_not_reports (by simpa [State.toReport, State.handOn] using reports)
    | streamDetached i g r => cases hx
    | domainEvent d => simp [State.toReport, State.handOn] at reports
    | overrideEvent => simp [State.toReport, State.handOn] at reports
    | marker l => simp [State.toReport, State.handOn] at reports
  · rw [and_iff_right e]
    cases c with
    | done h => exact toReport_congr
    | data y => exact Iff.rfl
    | streamEvent i => exact toReport_modStream_ne _ e
    | streamDetached i g r => exact Iff.rfl
    | domainEvent d => exact toReport_modDomain_ne _ e
    | overrideEvent =>
      cases x with
      | overrideEvent => exact absurd rfl e
      | domainEvent d => cases d <;> exact Iff.rfl
      | _ => exact Iff.rfl
    | marker l => exact toReport_modLane_ne _ e

theorem handOn_record (s : State) (c : Claim) (i : StreamNo) : ((s.handOn c).stream i).state = (s.stream i).state ∧
    (((s.handOn c).stream i).record = (s.stream i).record ∨ ((s.handOn c).stream i).record = StreamRecord.empty) := by
  cases c with
  | streamEvent j =>
    rw [State.handOn, State.stream_modStream]
    split
    · next e => exact ⟨by rw [e], .inr rfl⟩
    · exact ⟨rfl, .inl rfl⟩
  | domainEvent d => simp [State.handOn]
  | _ => exact ⟨rfl, .inl rfl⟩

theorem handOn_recordOk {i : StreamNo} (h : (s.stream i).RecordOk) (c : Claim) : ((s.handOn c).stream i).RecordOk := by
  obtain ⟨state, record | record⟩ := handOn_record s c i
  · exact h.of_same record (by rw [state]; exact id)
  · exact ⟨fun _ => record, by rw [record]; exact Nat.zero_le _⟩

theorem handOn_claims (s : State) (c : Claim) : (s.handOn c).claims = s.claims := by
  cases c <;> simp [State.handOn]

theorem handOn_port (s : State) (c : Claim) : (s.handOn c).port = s.port := by
  cases c <;> simp [State.handOn]

theorem convert_claims (s : State) (c : Claim) (rest : List Claim) : (s.convert c rest).claims = rest := handOn_claims _ c

/-- Behind a head that coalesces no claim of the same record stands. -/
theorem filter_tail_of_once {rest : List Claim} (h : ((c :: rest).filter Claim.coalesces).Nodup) :
    rest.filter Claim.coalesces = ((c :: rest).filter Claim.coalesces).filter fun x => decide (x ≠ c) := by
  have apart : ∀ x ∈ rest.filter Claim.coalesces, x ≠ c := fun x hx e => by
    rw [List.filter_cons_of_pos (e ▸ (List.mem_filter.mp hx).2)] at h
    exact (List.nodup_cons.mp h).1 (e ▸ hx)
  have behind : (rest.filter Claim.coalesces).filter (fun x => decide (x ≠ c)) = rest.filter Claim.coalesces :=
    List.filter_eq_self.mpr fun x hx => decide_eq_true (apart x hx)
  rw [List.filter_cons]
  split
  · rw [List.filter_cons_of_neg (by simp), behind]
  · exact behind.symm

theorem convert_reportsOk {rest : List Claim} (hs : s.ReportsOk) (hc : s.claims = c :: rest) : (s.convert c rest).ReportsOk := by
  have popped : ∀ x, ({ s with claims := rest } : State).toReport x ↔ s.toReport x := fun x =>
    toReport_congr
  have handed : ((({ s with claims := rest } : State).handOn c)).ReportsOk := by
    refine hs.kept (fun x => decide (x ≠ c)) ?_ (fun x hx => ?_) fun i => ?_
    · rw [handOn_claims, hc]
      exact filter_tail_of_once (hc ▸ hs.once)
    · rw [handOn_toReport hx, popped, decide_eq_true_iff]
    · exact handOn_recordOk (s := { s with claims := rest }) (hs.records i) c
  exact handed.of_eq

/-! ### CLOSE (R16, R137) -/

/-- The claim that CLOSE puts in the place of `x`: the attached claim of stream `i` is detached (R137). -/
def State.detached (s : State) (i : StreamNo) (x : Claim) : Claim :=
  if x = Claim.streamEvent i then Claim.streamDetached i (s.stream i).generation (s.stream i).record else x

theorem detach_claims (s : State) (i : StreamNo) : (s.detach i).claims = s.claims.map (s.detached i) := rfl

/-- A detached claim coalesces no more. -/
theorem filter_detached (s : State) (i : StreamNo) (cs : List Claim) : (cs.map (s.detached i)).filter Claim.coalesces =
    (cs.filter Claim.coalesces).filter fun x => decide (x ≠ .streamEvent i) := by
  induction cs with
  | nil => rfl
  | cons x cs ih =>
    by_cases e : x = .streamEvent i
    · subst e
      have plain : (s.detached i (.streamEvent i)).coalesces = false := by rw [State.detached, if_pos rfl]; rfl
      rw [List.map_cons, List.filter_cons_of_neg (by simp [plain]), ih, List.filter_cons_of_pos (by rfl),
        List.filter_cons_of_neg (by simp)]
    · rw [List.map_cons, State.detached, if_neg e, List.filter_cons, List.filter_cons, ih]
      split
      · rw [List.filter_cons_of_pos (by simpa using e)]
      · rfl

/-- A retirement changes a stream in its queue alone. -/
theorem retireAll_stream (i : StreamNo) (o : Descriptor → DoneOutcome) (q : List Handle) (s : State) :
    ∃ q', (State.retireAll i o q s).stream i = { s.stream i with queue := q' } := by
  induction q generalizing s with
  | nil => exact ⟨_, rfl⟩
  | cons h q ih =>
    obtain ⟨q', e⟩ := ih (s.retire i h (o (s.desc h)))
    exact ⟨q', by rw [State.retireAll, e, retire_stream, if_pos rfl]⟩

/-- The state in which CLOSE has retired the queue and voided the move. -/
def State.emptiedQueue (s : State) (i : StreamNo) : State :=
  State.retireAll i (fun _ => .discarded) (s.stream i).queue (s.voidStream i)

theorem emptiedQueue_logged (s : State) (i : StreamNo) : Logged s (s.emptiedQueue i) :=
  (Logged.voidIf (.refl s) _).trans (.retireAll i _ _ _)

theorem beforeClose_eq (s : State) (i : StreamNo) : s.beforeClose i = (s.emptiedQueue i).detach i := rfl

theorem closeStream_reportsOk (i : StreamNo) (hs : s.ReportsOk) : (s.closeStream i).ReportsOk := by
  have retired := (emptiedQueue_logged s i).keeps hs
  have stream : ∀ j, (s.closeStream i).stream j = if j = i then
      { (s.emptiedQueue i).stream i with state := .closed, ring := [], record := StreamRecord.empty }
      else (s.emptiedQueue i).stream j := closeStream_stream s i
  refine retired.kept (fun x => decide (x ≠ .streamEvent i)) (filter_detached (s.emptiedQueue i) i _)
    (fun x _ => ?_) fun j => ?_
  · rw [decide_eq_true_iff]
    by_cases e : x = .streamEvent i
    · refine iff_of_false (fun reports => ?_) fun h => h.1 e
      rw [e, State.toReport, stream, if_pos rfl] at reports
      exact empty_not_reports reports
    · rw [and_iff_right e]
      have freed : ∀ (u : State) o, ({ u with owners := o } : State).toReport x ↔ u.toReport x := fun _ _ =>
        toReport_congr
      have detached : ∀ u : State, (u.detach i).toReport x ↔ u.toReport x := fun _ =>
        toReport_congr
      rw [closeStream_eq, freed, toReport_modStream_ne _ e, beforeClose_eq, detached]
  · rw [stream]
    split
    · exact ⟨fun _ => rfl, Nat.zero_le _⟩
    · exact retired.records j

/-- The claims after CLOSE: the attached claim of the stream detached in its place, and those of its queue behind (R16, R49). -/
theorem closeStream_claims (s : State) (i : StreamNo) : s.claims.map (s.detached i) <+: (s.closeStream i).claims := by
  obtain ⟨q', stream⟩ := retireAll_stream i (fun _ => .discarded) (s.stream i).queue (s.voidStream i)
  have same : (s.emptiedQueue i).detached i = s.detached i := by
    funext x
    rw [State.detached, State.emptiedQueue, stream]
    rfl
  rw [← same]
  exact (emptiedQueue_logged s i).claims.map _

theorem closeStream_port (s : State) (i : StreamNo) : (s.closeStream i).port = s.port := (emptiedQueue_logged s i).port

/-! ### The resets (R26, R132, R149) -/

theorem recordOk_of_closed {st : Stream} (record : st.record = StreamRecord.empty) : st.RecordOk :=
  ⟨fun _ => record, by rw [record]; exact Nat.zero_le _⟩

/-- R132: an asserted line is reported as soon as the reset ends. -/
theorem fullReset_reportsOk (s : State) (cause : ResetCause) (lv : LineLevel) (csnLow : Bool) :
    (s.fullReset cause lv csnLow).ReportsOk := by
  have stream : ∀ i, ((s.fullReset cause lv csnLow).stream i).record = StreamRecord.empty := fun i =>
    congrArg Stream.record (s.stream_mapStreams Stream.fullReset i)
  have lane : ∀ l, (s.fullReset cause lv csnLow).lane l = Lane.afterReset := fun l => vector_get_replicate _ l
  have claims : (s.fullReset cause lv csnLow).claims = claimsAfterReset lv := rfl
  refine ⟨by rw [claims]; cases lv <;> decide, fun x hx => ?_, fun i => recordOk_of_closed (stream i)⟩
  rw [claims]
  cases x with
  | done h => cases hx
  | data y => cases hx
  | streamEvent i =>
    refine iff_of_false (by cases lv <;> simp [claimsAfterReset]) ?_
    rw [State.toReport, stream]
    exact empty_not_reports
  | streamDetached i g r => cases hx
  | domainEvent d =>
    refine iff_of_false (by cases lv <;> simp [claimsAfterReset]) ?_
    cases d <;> exact Nat.not_succ_le_zero 0
  | overrideEvent => cases lv <;> simp [claimsAfterReset, State.toReport, State.fullReset, OverrideUnit.afterReset]
  | marker l =>
    refine iff_of_false (by cases lv <;> simp [claimsAfterReset]) ?_
    rw [State.toReport, lane]
    exact Bool.false_ne_true

/-- R149: the DOMAIN EVENT, OVERRIDE EVENT and MARKER claims stay, their records with them. -/
theorem streamsReset_reportsOk (hs : s.ReportsOk) : s.streamsReset.ReportsOk := by
  have stream : ∀ i, (s.streamsReset.stream i).record = StreamRecord.empty := fun i =>
    congrArg Stream.record (s.stream_mapStreams Stream.streamsReset i)
  refine hs.kept Claim.staysThroughStreamsReset ?_ (fun x hx => ?_) fun i => recordOk_of_closed (stream i)
  · exact (List.filter_filter ..).trans ((List.filter_congr fun _ _ => Bool.and_comm ..).trans (List.filter_filter ..).symm)
  · cases x with
    | done h => cases hx
    | data y => cases hx
    | streamEvent i =>
      refine iff_of_false ?_ fun h => Bool.false_ne_true h.1
      rw [State.toReport, stream]
      exact empty_not_reports
    | streamDetached i g r => cases hx
    | domainEvent d => cases d <;> exact (and_iff_right rfl).symm
    | overrideEvent => exact (and_iff_right rfl).symm
    | marker l => exact (and_iff_right rfl).symm

/-! ### The end of an exchange (R155) -/

/-- From `s` to `t` nothing changes but the port and the free list. -/
def Exchanged (s t : State) : Prop := t = { s with port := t.port, freeList := t.freeList }

theorem Exchanged.trans {s t u : State} (a : Exchanged s t) (b : Exchanged t u) : Exchanged s u :=
  Eq.trans b (congrArg (fun v : State => { v with port := u.port, freeList := u.freeList }) a)

theorem acknowledge_exchanged (s : State) (a : BitVec 8) : Exchanged s (s.acknowledge a) := by
  unfold State.acknowledge
  split <;> rfl

theorem dealRequest_exchanged (s : State) (seq kind : Byte) (payload : List Byte) :
    Exchanged s (s.dealRequest seq kind payload).1 := by
  rcases dealRequest_cases s seq kind payload with h | ⟨h, -⟩ <;> rw [h] <;> rfl

theorem endExchange_exchanged (s : State) (f : OutFrame) (sdi : List Byte) : Exchanged s (s.endExchange f sdi) := by
  have inbound : ∀ (u : State) c fr, Exchanged u (u.settleInbound c fr).1 := fun u c fr => by
    cases fr with
    | noFrame => rfl
    | bad => rfl
    | good seq ack kind payload =>
      have due : Exchanged (u.acknowledge ack) ((u.acknowledge ack).modPort fun p => (p.dueCheck true).setDue c) := rfl
      exact ((acknowledge_exchanged u ack).trans due).trans (dealRequest_exchanged _ _ _ _)
  have marked : Exchanged s (s.modPort fun p => p.settleOutbound (carriedBy f sdi)) := rfl
  exact (marked.trans (inbound _ (carriedBy f sdi) (judge sdi))).trans rfl

theorem Exchanged.claims {t : State} (h : Exchanged s t) : t.claims = s.claims := (congrArg State.claims h).trans rfl

theorem Exchanged.reportsOk {t : State} (h : Exchanged s t) (hs : s.ReportsOk) : t.ReportsOk := by
  rw [h]
  exact hs.of_eq

end

end Sys2Proof.Machine

/-! ## What each command does to the claim list and the outbound queue (R134, R136, R139, R143, R161, R162) -/

namespace Sys2Proof.Machine

/-- From `p` to `q` the outbound queue stays as it is, or takes one entry at its tail: UNSENT, not carried, and numbered with the
successor of the last assigned number (R143, R162). -/
def Port.Extends (p q : Port) : Prop :=
  q.outbound = p.outbound ∧ q.lastOut = p.lastOut ∨
  ∃ b, q.outbound = p.outbound ++ [{ seq := nextSeq p.lastOut, body := b, sent := false, carried := false }] ∧
    q.lastOut = nextSeq p.lastOut

/-- Command `c`, from `s` to `t`, adds to the outbound queue at most, adds to the claim list at most unless it is one of the three
that take claims from it or rewrite them, and keeps what the coalescing claims stand for. -/
structure Advances (c : Instr) (s t : State) : Prop where
  entries : s.port.Extends t.port
  claims : c ≠ .conversion → c ≠ .closeStream → c ≠ .resetStreams → s.claims <+: t.claims
  keeps : s.ReportsOk → t.ReportsOk

theorem Port.Extends.of_eq {p q : Port} (h : q = p) : p.Extends q := .inl ⟨by rw [h], by rw [h]⟩

theorem appendEntry_extends (s : State) (b : EntryBody) : s.port.Extends (s.appendEntry b).port := .inr ⟨b, rfl, rfl⟩

section
variable {c : Instr} {s t u : State}

theorem modPort_reportsOk (hs : s.ReportsOk) (f : Port → Port) : (s.modPort f).ReportsOk :=
  hs.of_eq

theorem appendEntry_reportsOk (hs : s.ReportsOk) (b : EntryBody) : (s.appendEntry b).ReportsOk := modPort_reportsOk hs _

theorem Logged.advances (a : Logged s t) : Advances c s t := ⟨.of_eq a.port, fun _ _ _ => a.claims, a.keeps⟩

theorem Advances.refl (c : Instr) (s : State) : Advances c s s := (Logged.refl s).advances

/-- A command that has acted appends its reply. -/
theorem Logged.replied (a : Logged s u) (r : Request) (st : Status) (b : ReplyBody) : Advances c s (u.reply r st b) where
  entries := a.port ▸ appendEntry_extends u _
  claims _ _ _ := a.claims
  keeps hs := appendEntry_reportsOk (a.keeps hs) _

/-! ### Requests -/

/-- The request taken has left the inbound queue, and the outbound queue stands. -/
theorem Advances.taken {rest : List Request} (a : Advances c (s.modPort fun p => { p with inbound := rest }) t) :
    Advances c s t :=
  ⟨a.entries, a.claims, fun hs => a.keeps (modPort_reportsOk hs _)⟩

theorem takeKind_advances {k : Kind} {sel : Request → Bool} {act : Request → State → State}
    (hact : ∀ r u, Advances c u (act r u)) : Advances c s (s.takeKind k sel act) := by
  rcases State.takeKind_cases s k sel act with h | ⟨r, rest, -, -, -, ⟨-, h⟩ | ⟨-, h⟩⟩ <;> rw [h]
  · exact .refl c s
  · exact ((Logged.refl (s.modPort fun p => { p with inbound := rest })).replied r .badLength .nothing).taken
  · exact (hact r _).taken

theorem takeKind_answer_advances {α : Type} {k : Kind} {sel : Request → Bool}
    {check : State → List Byte → Except Status α} {act : Request → State → α → State}
    (hact : ∀ r u x, check u r.payload = .ok x → Advances c u (act r u x)) :
    Advances c s (s.takeKind k sel fun r u => u.answer k r (check u r.payload) (act r u)) :=
  takeKind_advances fun r u => by
    cases hc : check u r.payload with
    | error st => exact (Logged.refl u).replied r st _
    | ok x => exact hact r u x hc

/-! ### The commands that take claims from the list or rewrite them -/

theorem closeStream_advances (i : StreamNo) (r : Request) (st : Status) (b : ReplyBody) :
    Advances .closeStream u ((u.closeStream i).reply r st b) where
  entries := closeStream_port u i ▸ appendEntry_extends (u.closeStream i) _
  claims _ h := absurd rfl h
  keeps hs := appendEntry_reportsOk (closeStream_reportsOk i hs) _

theorem streamsReset_advances (r : Request) (st : Status) (b : ReplyBody) :
    Advances .resetStreams u (u.streamsReset.reply r st b) where
  entries := appendEntry_extends u.streamsReset _
  claims _ _ h := absurd rfl h
  keeps hs := appendEntry_reportsOk (streamsReset_reportsOk hs) _

theorem convert_advances {head : Claim} {rest : List Claim} (hc : s.claims = head :: rest) :
    Advances .conversion s (s.convert head rest) where
  entries := handOn_port { s with claims := rest } head ▸
    appendEntry_extends (({ s with claims := rest } : State).handOn head) _
  claims h := absurd rfl h
  keeps hs := convert_reportsOk hs hc

/-! ### The commands, one by one -/

/-- All commands but the full resets and the end of an exchange. -/
theorem exec_advances (h : exec c s = .next t) (full : c ≠ .resetFull) (pin : ∀ lv b, c ≠ .pinReset lv b)
    (exchange : ∀ sdi, c ≠ .endOfExchange sdi) : Advances c s t := by
  cases c with
  | pinReset ovr csnLow => exact absurd rfl (pin ovr csnLow)
  | resetFull => exact absurd rfl full
  | endOfExchange sdi => exact absurd rfl (exchange sdi)
  | csnFalling =>
    cases h
    split
    · exact .refl _ s
    · exact ⟨.inl ⟨rfl, rfl⟩, fun _ _ _ => List.prefix_refl _, fun hs => modPort_reportsOk hs _⟩
  | unknownKind =>
    cases h
    unfold State.takeHead
    split
    · exact .refl _ s
    · split
      · exact ((Logged.refl _).replied _ _ _).taken
      · exact .refl _ s
  | identify => cases h; exact takeKind_advances fun r u => (Logged.refl u).replied r _ _
  | status => cases h; exact takeKind_advances fun r u => (Logged.refl u).replied r _ _
  | resetStreams =>
    cases h
    refine takeKind_advances fun r u => ?_
    split
    · exact streamsReset_advances r _ _
    · exact (Logged.refl u).replied r _ _
  | setDomain => cases h; exact takeKind_answer_advances fun r u x _ => (Logged.setDomain u x.1 x.2).replied r _ _
  | queryTime =>
    cases h
    exact takeKind_answer_advances (check := fun _ => checkQueryTime) fun r u _ _ => (Logged.refl u).replied r _ _
  | setLane => cases h; exact takeKind_answer_advances fun r u _ _ => ((Logged.refl u).modLane _ _).replied r _ _
  | setMarker =>
    cases h
    exact takeKind_answer_advances (check := fun _ => checkSetMarker) fun r u _ _ => ((Logged.refl u).modLane _ _).replied r _ _
  | openStream =>
    cases h
    exact takeKind_answer_advances fun r u x passed => (Logged.openStream x.2 (checkOpen_ok passed).1).replied r _ _
  | startStream => cases h; exact takeKind_answer_advances fun r u i _ => (Logged.startStream u i).replied r _ _
  | stopDrain => cases h; exact takeKind_answer_advances fun r u i _ => (Logged.drain u i).replied r _ _
  | stopAbort => cases h; exact takeKind_answer_advances fun r u i _ => (Logged.abort u i).replied r _ _
  | closeStream => cases h; exact takeKind_answer_advances fun r u i _ => closeStream_advances i r _ _
  | queryStream => cases h; exact takeKind_answer_advances fun r u _ _ => (Logged.refl u).replied r _ _
  | submit => cases h; exact takeKind_answer_advances fun r u x _ => (Logged.submit u r.payload x.1 x.2.1 x.2.2).replied r _ _
  | put => cases h; exact takeKind_answer_advances fun r u x _ => (Logged.put u x.1 x.2 (putData r.payload)).replied r _ _
  | clearOverride =>
    cases h
    refine takeKind_advances fun r u => ?_
    have cleared : Logged u { u with ovr := { u.ovr with latch := false, recLatch := false } } :=
      .of_eq
    split
    · exact (Logged.refl u).replied r _ _
    · exact cleared.replied r _ _
  | setArbitration =>
    cases h
    refine takeKind_answer_advances (check := fun _ => checkSetArbitration) fun r u m _ => ?_
    have recorded : Logged u { u with mode := m, rotation := List.finRange 12 } := .of_eq
    exact recorded.replied r _ _
  | grant =>
    cases h
    split
    · exact .refl _ s
    · split
      · exact .refl _ s
      · exact (Logged.grantTo s _).advances
  | completion =>
    cases h
    split
    · exact .refl _ s
    · next m _ =>
      have idle : Logged s { s with inFlight := none } := .of_eq
      dsimp only
      split
      · exact idle.advances
      · split
        · exact (idle.trans (.completePlay _ m)).advances
        · exact (idle.trans (.completeCapture _ m _)).advances
  | frameClosed d bits duration rx =>
    cases h
    split
    · split
      · split
        · exact (Logged.goodFrameClosed s d duration rx).advances
        · exact (Logged.badFrameClosed s d).advances
      · exact ((Logged.refl s).modDomain d _).advances
    · exact .refl _ s
  | lockTimeout d elapsed =>
    cases h
    split
    · exact (Logged.loseLock s d false).advances
    · exact .refl _ s
  | goodRunTimeout d elapsed =>
    cases h
    split
    · exact ((Logged.refl s).modDomain d _).advances
    · exact .refl _ s
  | generatorBoundary d rx =>
    cases h
    split
    · exact ((Logged.refl s).frameEvent d rx).advances
    · exact .refl _ s
  | assertionEdge =>
    cases h
    split
    · exact .refl _ s
    · have muted : Logged s s.muteInFlight := .of_eq
      exact (muted.overrideEdge .asserted true).advances
  | deassertionEdge =>
    cases h
    split
    · exact .refl _ s
    · exact ((Logged.refl s).overrideEdge .deasserted s.ovr.latch).advances
  | conversion =>
    cases h
    split
    · exact .refl _ s
    · next head rest hc =>
      split
      · exact convert_advances hc
      · exact .refl _ s

/-! ### The full resets and the end of an exchange -/

theorem execResetFull_reportsOk (h : exec .resetFull s = .next t) (hs : s.ReportsOk) : t.ReportsOk := by
  cases h
  rcases State.takeKind_cases s .reset isResetFull fun _ s => s.fullReset .request s.ovr.level s.port.csnLow with
    h | ⟨r, rest, -, -, -, ⟨-, h⟩ | ⟨-, h⟩⟩ <;> rw [h]
  · exact hs
  · exact hs.of_eq
  · exact fullReset_reportsOk _ _ _ _

theorem exec_endOfExchange_exchanged {sdi : List Byte} (h : exec (.endOfExchange sdi) s = .next t) : Exchanged s t := by
  cases h
  split
  · split
    · exact endExchange_exchanged s _ sdi
    · rfl
  · rfl

theorem exec_reportsOk (h : exec c s = .next t) (hs : s.ReportsOk) : t.ReportsOk := by
  by_cases full : c = .resetFull
  · exact execResetFull_reportsOk (full ▸ h) hs
  by_cases pin : ∃ lv b, c = .pinReset lv b
  · obtain ⟨lv, b, rfl⟩ := pin
    cases h
    exact fullReset_reportsOk s _ _ _
  by_cases exchange : ∃ sdi, c = .endOfExchange sdi
  · obtain ⟨sdi, rfl⟩ := exchange
    exact (exec_endOfExchange_exchanged h).reportsOk hs
  exact (exec_advances h full (fun lv b e => pin ⟨lv, b, e⟩) fun sdi e => exchange ⟨sdi, e⟩).keeps hs

end

/-- Settles O51: every command but the full resets and the end of an exchange answers, reports or leaves the queue. -/
theorem outboundEntriesStay : Obligations.OutboundEntriesStay := fun _ _ _ h full pin exchange =>
  (exec_advances h full pin exchange).entries

/-- Settles O56: the four coalescing kinds are one, a claim that stands for a record. What gives a record something to report
raises its claim if none is pending; conversion, CLOSE and the resets empty the record with the claim that they take. -/
theorem stepKeepsClaims : Obligations.StepKeepsClaims := by
  intro s t hs h
  have reports := claimsOk_iff.mp hs
  refine claimsOk_iff.mpr ?_
  unfold step at h
  split at h
  · cases h; exact reports
  · exact exec_reportsOk h reports.of_eq

end Sys2Proof.Machine

/-! ## Claims keep their places, and the head claim is converted (R1, R15, R16, R134, R139 to R142) -/

namespace Sys2Proof.Machine

/-! ### CLOSE -/

section
variable {s t : State} {i : StreamNo}

/-- The oldest request is a CLOSE of stream `i` that passes: the stream IDLE and its generation given (R1, R15). -/
def State.Closes (s : State) (i : StreamNo) : Prop :=
  ∃ r rest b, s.port.inbound = r :: rest ∧ r.kind = 0x21 ∧ r.payload = [b, (s.stream i).generation] ∧ b.toNat = i.val ∧
    (s.stream i).state = .idle

theorem closeCode_of_kindOf {k : Byte} (h : kindOf k = some .closeStream) : k = 0x21 := by
  unfold kindOf at h
  split at h
  all_goals cases h
  next code => exact BitVec.eq_of_toNat_eq code

theorem streamOf_toNat {b : Byte} (h : streamOf b = some i) : b.toNat = i.val := by
  unfold streamOf at h
  split at h
  · cases h; rfl
  · cases h

/-- A CLOSE whose check passes is one that closes. -/
theorem closes_of_checkClose {r : Request} {rest : List Request} (hin : s.port.inbound = r :: rest)
    (hk : kindOf r.kind = some .closeStream) (hl : lengthFits .closeStream r.payload = true)
    (hc : (s.afterTaking rest).checkClose r.payload = .ok i) : s.Closes i := by
  obtain ⟨number, idle, checks⟩ := State.checkStream_ok.mp hc
  have generation : byteAt r.payload 1 = (s.stream i).generation :=
    of_decide_eq_true (firstFailure_eq_none.mp checks _ List.mem_cons_self)
  obtain ⟨b, g, hp⟩ := List.length_eq_two.mp (beq_iff_eq.mp hl)
  rw [hp] at number generation
  have generation : g = (s.stream i).generation := generation
  exact ⟨r, rest, b, hin, closeCode_of_kindOf hk, generation ▸ hp, streamOf_toNat number, of_decide_eq_true idle⟩

theorem exec_closeStream_of_closes (hc : s.Closes i) : ∃ rest r b,
    exec .closeStream s = .next (((s.afterTaking rest).closeStream i).reply r .ok b) := by
  obtain ⟨r, rest, b, hin, hkind, hp, hi, hidle⟩ := hc
  have passes : (s.afterTaking rest).checkClose r.payload = .ok i := by
    rw [hp]
    exact State.checkStream_passes hi (decide_eq_true hidle) (generationCheck_none rfl)
  exact ⟨rest, r, _, congrArg Host.Outcome.next (takeKind_acts (sel := anyRequest) (check := State.checkClose)
    (act := fun r s i => (s.closeStream i).reply r .ok (.opening i (s.stream i).generation)) hin (by rw [hkind]; rfl) rfl
    (by rw [hp]; rfl) passes)⟩

theorem exec_closeStream_of_not_closes (h : exec .closeStream s = .next t) (hc : ∀ i, ¬ s.Closes i) : t.claims = s.claims := by
  cases h
  rcases State.takeKind_cases s .closeStream anyRequest fun r s => s.answer .closeStream r (s.checkClose r.payload) fun i =>
      (s.closeStream i).reply r .ok (.opening i (s.stream i).generation) with
    h | ⟨r, rest, hin, hk, -, ⟨-, h⟩ | ⟨hl, h⟩⟩ <;> rw [h]
  · rfl
  · rw [← State.afterTaking]
    cases passes : (s.afterTaking rest).checkClose r.payload with
    | error st => rfl
    | ok i => exact absurd (closes_of_checkClose hin hk hl passes) (hc i)

/-! ### CONVERSION -/

/-- Without a claim or without report room no conversion happens (R139; log entry 2). -/
theorem exec_conversion_waits (h : s.claims = [] ∨ 16 ≤ s.reportEntries) : exec .conversion s = .next s := by
  change execConversion s = _
  unfold execConversion
  split
  · rfl
  · next c rest hc =>
    have full : ¬ s.reportEntries < Config.reportEntries := Nat.not_lt.mpr (h.resolve_left (by simp [hc]))
    rw [if_neg full]

theorem exec_conversion_takes {c : Claim} {rest : List Claim} (hc : s.claims = c :: rest) (room : s.reportEntries < 16) :
    exec .conversion s = .next (s.convert c rest) := by
  change execConversion s = _
  rw [execConversion, hc]
  exact congrArg Host.Outcome.next (if_pos room)

theorem exec_conversion_claims (h : exec .conversion s = .next t) : t.claims = s.claims ∨ t.claims = s.claims.tail := by
  cases h
  split
  · exact .inl rfl
  · next c rest hc =>
    split
    · exact .inr (by rw [convert_claims, hc, List.tail_cons])
    · exact .inl rfl

end

/-- Settles O50. -/
theorem claimsKeepTheirPlaces : Obligations.ClaimsKeepTheirPlaces := by
  intro c s t h full streams pin
  refine ⟨fun conversion close => ?_, fun close => ⟨fun i closes => ?_, fun none => ?_⟩, fun conversion => ?_⟩
  · by_cases exchange : ∃ sdi, c = .endOfExchange sdi
    · obtain ⟨sdi, rfl⟩ := exchange
      rw [(exec_endOfExchange_exchanged h).claims]
    · exact (exec_advances h full pin fun sdi e => exchange ⟨sdi, e⟩).claims conversion close streams
  · subst close
    obtain ⟨rest, r, b, closed⟩ := exec_closeStream_of_closes closes
    rw [closed] at h
    cases h
    exact closeStream_claims (s.afterTaking rest) i
  · subst close
    exact exec_closeStream_of_not_closes h none
  · subst conversion
    exact exec_conversion_claims h

/-- Settles O49: the report of each claim is built from the state before its record is handed on. -/
theorem conversionOfHeadClaim : Obligations.ConversionOfHeadClaim := by
  refine ⟨fun s h => exec_conversion_waits h, ?_⟩
  intro s c rest hc room after
  rw [exec_conversion_takes hc room]
  refine ⟨fun h o e retired => ?_, fun x e => ?_, fun i e => ?_, fun i g x e => ?_, fun d e => ?_, fun e => ?_,
    fun l w e word => ?_⟩ <;> subst e
  · rw [State.convert, State.reportOf, Descriptor.doneReport, retired]
    rfl
  · rfl
  · rfl
  · rfl
  · cases d <;> rfl
  · rfl
  · rw [State.convert, State.reportOf, word]
    rfl

end Sys2Proof.Machine

/-! ## Taking a request: what each row does, and what the port shows of it (R160, R161, R162, R178) -/

namespace Sys2Proof.Machine

/-! ### Kind codes (Table 10-4) -/

/-- The code of each kind (Table 10-4). -/
def Kind.code : Kind → Byte
  | .identify => 0x01
  | .status => 0x02
  | .reset => 0x03
  | .setDomain => 0x10
  | .queryTime => 0x11
  | .setLane => 0x12
  | .setMarker => 0x13
  | .openStream => 0x20
  | .closeStream => 0x21
  | .startStream => 0x22
  | .stopStream => 0x23
  | .queryStream => 0x24
  | .submit => 0x30
  | .put => 0x31
  | .clearOverride => 0x40
  | .setArbitration => 0x41

theorem kindOf_code (k : Kind) : kindOf k.code = some k := by cases k <;> rfl

theorem kindOf_eq_some_iff {c : Byte} {k : Kind} : kindOf c = some k ↔ c = k.code := by
  refine ⟨fun h => ?_, fun h => h ▸ kindOf_code k⟩
  unfold kindOf at h
  split at h
  all_goals cases h
  all_goals next code => exact BitVec.eq_of_toNat_eq code

/-! ### One reply, and nothing else with a refusal -/

/-- From `u`, in which request `r` has been taken, to `t`: the port takes the reply at the tail of its outbound queue, and with
any status but OK nothing else changes (R161, R178). -/
def Replied (r : Request) (u t : State) : Prop :=
  ∃ st b, t.port = (u.reply r st b).port ∧
    (st ≠ .ok → t = u.reply r st b ∧ (b = .nothing ∨ b = .subject (byteAt r.payload 0)))

section
variable {r : Request} {u v t : State} {k : Kind}

/-- A request that has acted is answered OK. -/
theorem Replied.acted (h : v.port = u.port) (b : ReplyBody) : Replied r u (v.reply r .ok b) :=
  ⟨.ok, b, by simp only [State.reply, State.appendEntry, State.modPort, h], fun e => absurd rfl e⟩

theorem Replied.refused (st : Status) : Replied r u (u.refuse k r st) := by
  refine ⟨st, _, rfl, fun _ => ⟨rfl, ?_⟩⟩
  split
  · exact .inr rfl
  · exact .inl rfl

theorem Replied.bare (st : Status) : Replied r u (u.reply r st .nothing) := ⟨st, .nothing, rfl, fun _ => ⟨rfl, .inl rfl⟩⟩

/-- A checked request is refused, or acts and is answered OK. -/
theorem Replied.answer {α : Type} {check : Except Status α} {act : α → State}
    (hact : ∀ x, check = .ok x → Replied r u (act x)) : Replied r u (u.answer k r check act) := by
  cases check with
  | error st => exact .refused st
  | ok x => exact hact x rfl

theorem Replied.port_answered {s : State} {rest : List Request} (h : Replied r (s.afterTaking rest) t) : ∃ st b,
    t.port = s.port.answered rest r st b ∧
      (st ≠ .ok → t = s.answered rest r st b ∧ (b = .nothing ∨ b = .subject (byteAt r.payload 0))) := h

end

/-! ### The seventeen rows -/

/-- The kind that a command takes; none for RESET with scope FULL, which has no reply (R161). -/
def takenKind : Instr → Option Kind
  | .identify => some .identify
  | .status => some .status
  | .resetStreams => some .reset
  | .setDomain => some .setDomain
  | .queryTime => some .queryTime
  | .setLane => some .setLane
  | .setMarker => some .setMarker
  | .openStream => some .openStream
  | .closeStream => some .closeStream
  | .startStream => some .startStream
  | .stopDrain => some .stopStream
  | .stopAbort => some .stopStream
  | .queryStream => some .queryStream
  | .submit => some .submit
  | .put => some .put
  | .clearOverride => some .clearOverride
  | .setArbitration => some .setArbitration
  | _ => none

/-- The table's other row for RESET or STOP takes this payload (log entry 17). -/
def leftToOtherRow (c : Instr) (p : List Byte) : Prop :=
  c = .resetStreams ∧ p = [0] ∨ c = .stopDrain ∧ p.length = 3 ∧ p.getD 2 0 = 1 ∨
    c = .stopAbort ∧ p.length = 3 ∧ p.getD 2 0 = 0

/-- Command `c` takes the requests of kind `k` but for those that the table's other row takes, and answers each once. -/
def AnswersOnce (c : Instr) (k : Kind) : Prop :=
  ∃ sel act, (∀ s, exec c s = .next (s.takeKind k sel act)) ∧ (∀ r, sel r = true ↔ ¬ leftToOtherRow c r.payload) ∧
    ∀ r u, Replied r u (act r u)

theorem answersOnce_any {c : Instr} {k : Kind} {act : Request → State → State}
    (exec : ∀ s, exec c s = .next (s.takeKind k anyRequest act)) (replies : ∀ r u, Replied r u (act r u))
    (other : c ≠ .resetStreams ∧ c ≠ .stopDrain ∧ c ≠ .stopAbort := by decide) : AnswersOnce c k :=
  ⟨anyRequest, act, exec, fun r => by simp [anyRequest, leftToOtherRow, other], replies⟩

theorem answersOnce_of_takenKind {c : Instr} {k : Kind} (h : takenKind c = some k) : AnswersOnce c k := by
  cases c with
  | identify => cases h; exact answersOnce_any (fun _ => rfl) fun r u => .acted (by rfl) _
  | status => cases h; exact answersOnce_any (fun _ => rfl) fun r u => .acted (by rfl) _
  | resetStreams =>
    cases h
    refine ⟨_, _, fun _ => rfl, fun r => by simp [leftToOtherRow, isResetFull], fun r u => ?_⟩
    split
    · exact .acted (by rfl) _
    · exact .refused _
  | setDomain =>
    cases h
    exact answersOnce_any (fun _ => rfl) fun r u => .answer fun x _ => .acted (Logged.setDomain u x.1 x.2).port _
  | queryTime => cases h; exact answersOnce_any (fun _ => rfl) fun r u => .answer fun d _ => .acted (by rfl) _
  | setLane => cases h; exact answersOnce_any (fun _ => rfl) fun r u => .answer fun x _ => .acted (by rfl) _
  | setMarker => cases h; exact answersOnce_any (fun _ => rfl) fun r u => .answer fun l _ => .acted (by rfl) _
  | openStream => cases h; exact answersOnce_any (fun _ => rfl) fun r u => .answer fun x _ => .acted (by rfl) _
  | closeStream => cases h; exact answersOnce_any (fun _ => rfl) fun r u => .answer fun i _ => .acted (closeStream_port u i) _
  | startStream =>
    cases h
    exact answersOnce_any (fun _ => rfl) fun r u => .answer fun i _ => .acted (Logged.startStream u i).port _
  | stopDrain =>
    cases h
    exact ⟨_, _, fun _ => rfl, fun r => by simp [leftToOtherRow, isAbort, byteAt, imp_iff_not_or],
      fun r u => .answer fun i _ => .acted (Logged.drain u i).port _⟩
  | stopAbort =>
    cases h
    exact ⟨_, _, fun _ => rfl, fun r => by simp [leftToOtherRow, isDrain, byteAt, imp_iff_not_or],
      fun r u => .answer fun i _ => .acted (Logged.abort u i).port _⟩
  | queryStream => cases h; exact answersOnce_any (fun _ => rfl) fun r u => .answer fun i _ => .acted (by rfl) _
  | submit =>
    cases h
    exact answersOnce_any (fun _ => rfl) fun r u => .answer fun x _ => .acted (Logged.submit u r.payload x.1 x.2.1 x.2.2).port _
  | put =>
    cases h
    exact answersOnce_any (fun _ => rfl) fun r u => .answer fun x _ => .acted (Logged.put u x.1 x.2 (putData r.payload)).port _
  | clearOverride =>
    cases h
    refine answersOnce_any (fun _ => rfl) fun r u => ?_
    split
    · exact .refused _
    · exact .acted (by rfl) _
  | setArbitration => cases h; exact answersOnce_any (fun _ => rfl) fun r u => .answer fun m _ => .acted (by rfl) _
  | _ => cases h

theorem takenKind_of_taking : ∀ k ∈ takings, (takenKind k.command).map Kind.code = some k.kind := by decide

/-- Settles O15: each row is a taking of one kind, and its act answers once. -/
theorem takenRequestAnsweredOnce : Obligations.TakenRequestAnsweredOnce := by
  intro k hk s r rest hin otherRow
  obtain ⟨kind, takes, code⟩ := Option.map_eq_some_iff.mp (takenKind_of_taking k hk)
  obtain ⟨sel, act, runs, selects, replies⟩ := answersOnce_of_takenKind takes
  have kind_iff : kindOf r.kind = some kind ↔ r.kind = k.kind := code ▸ kindOf_eq_some_iff
  refine ⟨_, runs s, fun apart => ?_, fun same taken => ?_⟩
  · rcases State.takeKind_cases s kind sel act with h | ⟨r', rest', hin', hkind, hsel, -⟩
    · exact h
    · obtain ⟨rfl, -⟩ := List.cons.inj (hin.symm.trans hin')
      exact (apart.elim (fun h => h (kind_iff.mp hkind)) ((selects r).mp hsel)).elim
  · have hkind := kind_iff.mpr same
    have hsel := (selects r).mpr taken
    cases hl : lengthFits kind r.payload with
    | false =>
      rw [State.takeKind_badLength hin hkind hsel hl]
      exact (Replied.bare .badLength).port_answered
    | true =>
      rw [State.takeKind_act hin hkind hsel hl]
      exact (replies r _).port_answered

end Sys2Proof.Machine

/-! ## What each command does to the port (R152, R161, R162) -/

namespace Sys2Proof.Machine

/-- What a command other than the full resets and the end of an exchange can do to the port: nothing, compose the outbound frame
at CSn falling, answer the oldest request, or append a report while there is report room. -/
inductive PortStep (s t : State) : Prop where
  | stays (h : t.port = s.port)
  | falls (high : s.port.csnLow = false) (h : t.port = { s.port with csnLow := true, frame := some s.composeOut })
  | answers (r : Request) (rest : List Request) (st : Status) (b : ReplyBody) (hin : s.port.inbound = r :: rest)
      (h : t.port = s.port.answered rest r st b)
  | reports (x : Report) (room : s.reportEntries < 16) (h : t.port = (s.appendEntry (.report x)).port)

section
variable {c : Instr} {s t : State}

/-! ### Requests and conversions -/

theorem takenKind_portStep {k : Kind} (hk : takenKind c = some k) (h : exec c s = .next t) : PortStep s t := by
  obtain ⟨sel, act, runs, -, replies⟩ := answersOnce_of_takenKind hk
  cases (runs s).symm.trans h
  rcases State.takeKind_cases s k sel act with h | ⟨r, rest, hin, -, -, ⟨-, h⟩ | ⟨-, h⟩⟩ <;> rw [h]
  · exact .stays rfl
  · exact .answers r rest .badLength .nothing hin rfl
  · obtain ⟨st, b, port, -⟩ := (replies r _).port_answered (s := s) (rest := rest)
    exact .answers r rest st b hin port

theorem exec_unknownKind_portStep (h : exec .unknownKind s = .next t) : PortStep s t := by
  cases h
  unfold State.takeHead
  split
  · exact .stays rfl
  · next r rest hin =>
    split
    · exact .answers r rest .unknownKind .nothing hin rfl
    · exact .stays rfl

theorem convert_port (s : State) (c : Claim) (rest : List Claim) :
    (s.convert c rest).port = (s.appendEntry (.report (s.reportOf c))).port := by
  simp only [State.convert, State.appendEntry, State.modPort, handOn_port]

/-! ### The engine, the clocks and the override line leave the port as it is -/

theorem exec_grant_port (h : exec .grant s = .next t) : t.port = s.port := by
  cases h
  split
  · rfl
  · split
    · rfl
    · exact (Logged.grantTo s _).port

theorem exec_completion_port (h : exec .completion s = .next t) : t.port = s.port := by
  cases h
  split
  · rfl
  · next m _ =>
    dsimp only
    split
    · rfl
    · split
      · exact (Logged.completePlay _ m).port
      · exact (Logged.completeCapture _ m _).port

theorem exec_frameClosed_port {d : DomainId} {bits duration : Nat} {rx : RxFrame}
    (h : exec (.frameClosed d bits duration rx) s = .next t) : t.port = s.port := by
  cases h
  split
  · split
    · split
      · exact (Logged.goodFrameClosed s d duration rx).port
      · exact (Logged.badFrameClosed s d).port
    · exact s.modDomain_port d _
  · rfl

theorem exec_generatorBoundary_port {d : DomainId} {rx : RxFrame} (h : exec (.generatorBoundary d rx) s = .next t) :
    t.port = s.port := by
  cases h
  split
  · exact ((Logged.refl s).frameEvent d rx).port
  · rfl

theorem exec_lockTimeout_port {d : DomainId} {elapsed : Nat} (h : exec (.lockTimeout d elapsed) s = .next t) :
    t.port = s.port := by
  cases h
  split
  · exact (Logged.loseLock s d false).port
  · rfl

theorem exec_goodRunTimeout_port {d : DomainId} {elapsed : Nat} (h : exec (.goodRunTimeout d elapsed) s = .next t) :
    t.port = s.port := by
  cases h
  split
  · exact s.modDomain_port d _
  · rfl

theorem exec_edge_port (h : exec .assertionEdge s = .next t ∨ exec .deassertionEdge s = .next t) : t.port = s.port := by
  rcases h with h | h
  all_goals
    cases h
    split
    · rfl
    · exact State.raiseOnce_port _ _

/-! ### The commands, one by one -/

/-- All commands but the full resets and the end of an exchange. -/
theorem exec_portStep (h : exec c s = .next t) (full : c ≠ .resetFull) (pin : ∀ lv b, c ≠ .pinReset lv b)
    (exchange : ∀ sdi, c ≠ .endOfExchange sdi) : PortStep s t := by
  cases hk : takenKind c with
  | some k => exact takenKind_portStep hk h
  | none =>
    cases c with
    | pinReset ovr csnLow => exact absurd rfl (pin ovr csnLow)
    | resetFull => exact absurd rfl full
    | endOfExchange sdi => exact absurd rfl (exchange sdi)
    | csnFalling =>
      cases h
      split
      · exact .stays rfl
      · next high => exact .falls (Bool.eq_false_iff.mpr high) rfl
    | unknownKind => exact exec_unknownKind_portStep h
    | grant => exact .stays (exec_grant_port h)
    | completion => exact .stays (exec_completion_port h)
    | frameClosed d bits duration rx => exact .stays (exec_frameClosed_port h)
    | lockTimeout d elapsed => exact .stays (exec_lockTimeout_port h)
    | goodRunTimeout d elapsed => exact .stays (exec_goodRunTimeout_port h)
    | generatorBoundary d rx => exact .stays (exec_generatorBoundary_port h)
    | assertionEdge => exact .stays (exec_edge_port (.inl h))
    | deassertionEdge => exact .stays (exec_edge_port (.inr h))
    | conversion =>
      cases h
      split
      · exact .stays rfl
      · next head rest _ =>
        split
        · next room => exact .reports (s.reportOf head) room (convert_port s head rest)
        · exact .stays rfl
    | _ => cases hk

end

end Sys2Proof.Machine

/-! ## The port's promises in terms of the port alone (R138, R152, R153, R157 to R159, R162, R164) -/

namespace Sys2Proof.Machine

/-! ### Numbers that follow one another -/

section
variable {q last : BitVec 8} {qs : List (BitVec 8)}

theorem seqRun_singleton : seqRun [q] last = true ↔ q ≠ 0 ∧ q = last := decide_eq_true_iff

theorem seqRun_cons_cons {r : BitVec 8} :
    seqRun (q :: r :: qs) last = true ↔ (q ≠ 0 ∧ r = nextSeq q) ∧ seqRun (r :: qs) last = true := by
  rw [seqRun, Bool.and_eq_true, decide_eq_true_iff]

theorem seqRun_head_ne_zero (h : seqRun (q :: qs) last = true) : q ≠ 0 := by
  cases qs with
  | nil => exact (seqRun_singleton.mp h).1
  | cons r qs => exact (seqRun_cons_cons.mp h).1.1

theorem seqRun_tail (h : seqRun (q :: qs) last = true) : seqRun qs last = true := by
  cases qs with
  | nil => rfl
  | cons r qs => exact (seqRun_cons_cons.mp h).2

theorem seqRun_suffix {rs : List (BitVec 8)} (h : seqRun qs last = true) (hs : rs <:+ qs) : seqRun rs last = true := by
  obtain ⟨front, rfl⟩ := hs
  induction front with
  | nil => exact h
  | cons x front ih => exact ih (seqRun_tail h)

/-- The successor of the last number continues the run (R157, R162). -/
theorem seqRun_snoc (h : seqRun qs last = true) : seqRun (qs ++ [nextSeq last]) (nextSeq last) = true := by
  induction qs with
  | nil => exact seqRun_singleton.mpr ⟨nextSeq_ne_zero last, rfl⟩
  | cons q qs ih =>
    have rest := ih (seqRun_tail h)
    cases qs with
    | nil =>
      obtain ⟨hq, rfl⟩ := seqRun_singleton.mp h
      exact seqRun_cons_cons.mpr ⟨⟨hq, rfl⟩, rest⟩
    | cons r qs => exact seqRun_cons_cons.mpr ⟨(seqRun_cons_cons.mp h).1, rest⟩

theorem nextSeq_toNat (q : BitVec 8) : (nextSeq q).toNat = q.toNat % 255 + 1 := by
  unfold nextSeq
  split
  · next e => rw [e]; rfl
  · bv_omega

theorem toNat_pos_of_ne_zero (hq : q ≠ 0) : 0 < q.toNat := by bv_omega

/-- How far a number of the run stands from the first: the numbers go round 1 to 255 (R162). -/
theorem seqRun_distance (h : seqRun (q :: qs) last = true) {r : BitVec 8} (hr : r ∈ qs) :
    ∃ n, 1 ≤ n ∧ n ≤ qs.length ∧ r.toNat = (q.toNat - 1 + n) % 255 + 1 := by
  induction qs generalizing q with
  | nil => cases hr
  | cons x qs ih =>
    obtain ⟨⟨hq, rfl⟩, rest⟩ := seqRun_cons_cons.mp h
    have next := nextSeq_toNat q
    have positive : 0 < q.toNat := toNat_pos_of_ne_zero hq
    rcases List.mem_cons.mp hr with rfl | hr
    · exact ⟨1, Nat.le_refl 1, by simp, by omega⟩
    · obtain ⟨n, one, le, hn⟩ := ih rest hr
      exact ⟨n + 1, by omega, by simpa using le, by omega⟩

/-- Fewer numbers than there are do not repeat. -/
theorem seqRun_nodup (h : seqRun qs last = true) (hl : qs.length ≤ 255) : qs.Nodup := by
  induction qs with
  | nil => exact List.nodup_nil
  | cons q qs ih =>
    rw [List.length_cons] at hl
    refine List.nodup_cons.mpr ⟨fun hq => ?_, ih (seqRun_tail h) (by omega)⟩
    obtain ⟨n, one, le, hn⟩ := seqRun_distance h hq
    have positive : 0 < q.toNat := toNat_pos_of_ne_zero (seqRun_head_ne_zero h)
    omega

end

/-! ### Runs from the oldest entry -/

/-- A run from the oldest onward: an entry satisfies `f` only if every entry ahead of it does. -/
theorem runFromOldest_iff {f : Entry → Bool} {es : List Entry} :
    runFromOldest f es ↔ es.Pairwise fun a b => f b = true → f a = true := by
  unfold runFromOldest
  induction es with
  | nil => simp
  | cons e es ih =>
    rw [List.dropWhile_cons, List.pairwise_cons]
    split
    · next he => rw [ih]; exact ⟨fun h => ⟨fun _ _ _ => he, h⟩, fun h => h.2⟩
    · next he =>
      rw [List.all_cons, Bool.and_eq_true, List.all_eq_true]
      refine ⟨fun ⟨_, h⟩ => ?_, fun ⟨h, _⟩ =>
        ⟨by simpa using he, fun b hb => by simpa using fun hf => he (h b hb hf)⟩⟩
      have absent : ∀ b ∈ es, f b ≠ true := fun b hb => by simpa using h b hb
      exact ⟨fun b hb hf => absurd hf (absent b hb),
        List.pairwise_of_forall_mem_list fun a _ b hb hf => absurd hf (absent b hb)⟩

/-! ### The outbound queue -/

/-- Outbound entries in the order of the link: numbered one after another up to `last`, the SENT and the carried ones runs from
the oldest, every SENT one carried (Table 9-1, R153, R162). -/
structure InOrder (es : List Entry) (last : BitVec 8) : Prop where
  run : seqRun (es.map fun e => e.seq) last = true
  sent : es.Pairwise fun a b => b.sent = true → a.sent = true
  carried : es.Pairwise fun a b => b.carried = true → a.carried = true
  sentCarried : ∀ e ∈ es, e.sent = true → e.carried = true

/-- An entry as it joins the outbound queue behind the last assigned number (R162). -/
def newEntry (last : BitVec 8) (b : EntryBody) : Entry := { seq := nextSeq last, body := b, sent := false, carried := false }

section
variable {es : List Entry} {last : BitVec 8}

theorem InOrder.nil (last : BitVec 8) : InOrder [] last := ⟨rfl, .nil, .nil, fun _ he => by cases he⟩

theorem InOrder.suffix {left : List Entry} (h : InOrder es last) (hs : left <:+ es) : InOrder left last where
  run := seqRun_suffix h.run (hs.map _)
  sent := h.sent.sublist hs.sublist
  carried := h.carried.sublist hs.sublist
  sentCarried e he := h.sentCarried e (hs.subset he)

theorem InOrder.append (h : InOrder es last) (b : EntryBody) :
    InOrder (es ++ [newEntry last b]) (nextSeq last) where
  run := by
    rw [List.map_append]
    exact seqRun_snoc h.run
  sent := List.pairwise_append.mpr ⟨h.sent, List.pairwise_singleton _ _, fun _ _ e he hs => by
    rw [List.mem_singleton.mp he] at hs
    cases hs⟩
  carried := List.pairwise_append.mpr ⟨h.carried, List.pairwise_singleton _ _, fun _ _ e he hs => by
    rw [List.mem_singleton.mp he] at hs
    cases hs⟩
  sentCarried e he hs := by
    rcases List.mem_append.mp he with he | he
    · exact h.sentCarried e he hs
    · rw [List.mem_singleton.mp he] at hs
      cases hs

/-- A go-back keeps the order (R164). -/
theorem InOrder.unsent (h : InOrder es last) : InOrder (es.map fun e => { e with sent := false }) last where
  run := by
    rw [List.map_map]
    exact h.run
  sent := List.pairwise_map.mpr (List.pairwise_of_forall fun _ _ hs => by cases hs)
  carried := List.pairwise_map.mpr h.carried
  sentCarried e he hs := by
    obtain ⟨x, -, rfl⟩ := List.mem_map.mp he
    cases hs

/-- The entry at the send cursor is marked SENT and carried: the runs grow by it (R153). -/
theorem InOrder.mark {front back : List Entry} {e : Entry} (h : InOrder (front ++ e :: back) last)
    (ahead : ∀ x ∈ front, x.sent = true) : InOrder (front ++ { e with sent := true, carried := true } :: back) last := by
  obtain ⟨frontSent, tailSent, -⟩ := List.pairwise_append.mp h.sent
  obtain ⟨frontCarried, tailCarried, -⟩ := List.pairwise_append.mp h.carried
  have aheadCarried : ∀ x ∈ front, x.carried = true := fun x hx =>
    h.sentCarried x (List.mem_append_left _ hx) (ahead x hx)
  refine ⟨?_, ?_, ?_, fun x hx hs => ?_⟩
  · simpa using h.run
  · exact List.pairwise_append.mpr ⟨frontSent, List.pairwise_cons.mpr ⟨fun _ _ _ => rfl, tailSent.tail⟩,
      fun x hx _ _ _ => ahead x hx⟩
  · exact List.pairwise_append.mpr ⟨frontCarried, List.pairwise_cons.mpr ⟨fun _ _ _ => rfl, tailCarried.tail⟩,
      fun x hx _ _ _ => aheadCarried x hx⟩
  · rcases List.mem_append.mp hx with hx | hx
    · exact aheadCarried x hx
    · rcases List.mem_cons.mp hx with rfl | hx
      · rfl
      · exact h.sentCarried x (by simp [hx]) hs

theorem countP_isReply_add_isReport (es : List Entry) : es.countP Entry.isReply + es.countP Entry.isReport = es.length := by
  rw [List.length_eq_countP_add_countP Entry.isReply]
  simp only [Bool.not_eq_true, Bool.decide_eq_false]
  rfl

end

/-! ### The port -/

/-- What the two queues and the due entry keep to between the ends of exchanges and within them (R138, R157, R159, R162,
R164). -/
structure Port.LinkOk (p : Port) : Prop where
  requests : p.inbound.length + p.outbound.countP Entry.isReply ≤ 8
  reports : p.outbound.countP Entry.isReport ≤ 16
  inboundRun : seqRun (p.inbound.map fun r => r.seq) p.lastIn = true
  noNop : ∀ r ∈ p.inbound, r.kind ≠ nopKind ∧ r.payload.length ≤ 1040
  entries : InOrder p.outbound p.lastOut
  due : ∀ q ∈ p.due, ∃ e ∈ p.outbound, e.seq = q ∧ e.sent = true

/-- The oldest entry marked UNSENT (Table 9-1). -/
def Port.cursor (p : Port) : Option Entry := p.outbound.find? fun e => !e.sent

/-- An exchange in progress carries the entry at the send cursor, or none (R152). -/
def Port.FrameOk (p : Port) : Prop :=
  ∀ f ∈ p.frame, p.csnLow = true ∧ ∀ q ∈ f.carries, ∃ e ∈ p.cursor, e.seq = q

/-- At most one LAST flag is set (R158). -/
def Port.FlagsOk (p : Port) : Prop := (p.lastBad && p.lastSeq || p.lastBad && p.lastFull || p.lastSeq && p.lastFull) = false

/-- The port's promises read the port alone. -/
structure Port.Ok (p : Port) : Prop where
  link : p.LinkOk
  frame : p.FrameOk
  flags : p.FlagsOk

theorem portOk_iff {s : State} : s.PortOk ↔ s.port.Ok := by
  constructor
  · intro h
    exact ⟨⟨h.requests, h.reports, h.inboundRun, h.noNop,
      ⟨h.outboundRun, runFromOldest_iff.mp h.sentRun, runFromOldest_iff.mp h.carriedRun, h.sentCarried⟩, h.due⟩,
      h.frame, h.flags⟩
  · intro ⟨h, frame, flags⟩
    exact ⟨h.requests, h.reports, h.inboundRun, h.entries.run, h.noNop, runFromOldest_iff.mpr h.entries.sent,
      runFromOldest_iff.mpr h.entries.carried, h.entries.sentCarried, h.due, frame, flags⟩

section
variable {p : Port}

/-- The numbers of the outbound entries are distinct: at most 24 stand (R162). -/
theorem Port.LinkOk.nodup (h : p.LinkOk) : (p.outbound.map fun e => e.seq).Nodup := by
  refine seqRun_nodup h.entries.run ?_
  have := countP_isReply_add_isReport p.outbound
  have := h.requests
  have := h.reports
  rw [List.length_map]
  omega

/-! ### Steps that append, and CSn falling -/

/-- The port after an entry has joined the tail, with the requests `ins` left waiting (R161, R162). -/
def Port.appended (p : Port) (ins : List Request) (b : EntryBody) : Port :=
  { p with inbound := ins, lastOut := nextSeq p.lastOut, outbound := p.outbound ++ [newEntry p.lastOut b] }

theorem Port.Ok.appended (h : p.Ok) {b : EntryBody} {ins : List Request} (hins : ins <:+ p.inbound)
    (requests : ins.length + (p.outbound ++ [newEntry p.lastOut b]).countP Entry.isReply ≤ 8)
    (reports : (p.outbound ++ [newEntry p.lastOut b]).countP Entry.isReport ≤ 16) : (p.appended ins b).Ok where
  link :=
    { requests := requests
      reports := reports
      inboundRun := seqRun_suffix h.link.inboundRun (hins.map _)
      noNop := fun r hr => h.link.noNop r (hins.subset hr)
      entries := h.link.entries.append b
      due := fun q hq => by
        obtain ⟨e, he, sent⟩ := h.link.due q hq
        exact ⟨e, List.mem_append_left _ he, sent⟩ }
  frame f hf := by
    obtain ⟨low, carries⟩ := h.frame f hf
    refine ⟨low, fun q hq => ?_⟩
    obtain ⟨e, he, seq⟩ := carries q hq
    have standing : (p.appended ins b).cursor = some e := by
      rw [Port.cursor, Port.appended, List.find?_append, ← Port.cursor, Option.mem_def.mp he, Option.some_or]
    exact ⟨e, standing, seq⟩
  flags := h.flags

theorem Port.Ok.answered (h : p.Ok) {r : Request} {rest : List Request} (hin : p.inbound = r :: rest) (st : Status)
    (b : ReplyBody) : (p.answered rest r st b).Ok := by
  refine h.appended (hin ▸ List.suffix_cons r rest) ?_ ?_
  · have requests := h.link.requests
    rw [hin, List.length_cons, Nat.add_right_comm] at requests
    rw [List.countP_append]
    exact requests
  · rw [List.countP_append]
    exact h.link.reports

theorem Port.Ok.reported (h : p.Ok) (room : p.outbound.countP Entry.isReport < 16) (x : Report) :
    (p.appended p.inbound (.report x)).Ok := by
  refine h.appended (List.suffix_refl _) ?_ ?_
  · rw [List.countP_append]
    exact h.link.requests
  · rw [List.countP_append]
    exact room

/-- The frame composed at CSn falling carries the entry at the send cursor (R152). -/
theorem composeOut_carries (s : State) : s.composeOut.carries = s.cursor.map Entry.seq := by
  unfold State.composeOut
  cases s.cursor <;> rfl

theorem csnFalls_ok {s : State} (h : s.port.Ok) :
    ({ s.port with csnLow := true, frame := some s.composeOut } : Port).Ok where
  link := { h.link with }
  frame f hf := by
    cases hf
    refine ⟨rfl, fun q hq => ?_⟩
    rw [composeOut_carries] at hq
    exact Option.map_eq_some_iff.mp hq
  flags := h.flags

theorem portStep_ok {s t : State} (h : PortStep s t) (hs : s.port.Ok) : t.port.Ok := by
  cases h with
  | stays h => exact h ▸ hs
  | falls _ h => exact h ▸ csnFalls_ok hs
  | answers r rest st b hin h => exact h ▸ hs.answered hin st b
  | reports x room h => exact h ▸ hs.reported room x

theorem afterReset_ok (cause : ResetCause) (csnLow : Bool) : (Port.afterReset cause csnLow).Ok where
  link :=
    { requests := Nat.zero_le 8
      reports := Nat.le_add_left 1 15
      inboundRun := rfl
      noNop := fun r hr => by cases hr
      entries := (InOrder.nil 0).append _
      due := fun q hq => by cases hq }
  frame f hf := by cases hf
  flags := rfl

end

end Sys2Proof.Machine

/-! ## Which bytes are a frame (R154, R156, R175) -/

namespace Sys2Proof.Machine

section
variable {m seq ack kind l0 l1 : Byte} {rest p extra : List Byte}

theorem enc2_length (n : Nat) : (enc2 n).length = 2 := rfl

/-- The two length bytes of a payload that a frame can have (R174). -/
theorem lengthBytes {n : Nat} (h : n ≤ 1040) :
    (BitVec.ofNat 8 n).toNat + 256 * (BitVec.ofNat 8 (n / 256)).toNat = n := by
  rw [BitVec.toNat_ofNat, BitVec.toNat_ofNat]
  omega

theorem lengthBytes_inv (l0 l1 : Byte) : BitVec.ofNat 8 (l0.toNat + 256 * l1.toNat) = l0 ∧
    BitVec.ofNat 8 ((l0.toNat + 256 * l1.toNat) / 256) = l1 := by
  constructor <;> apply BitVec.eq_of_toNat_eq <;> rw [BitVec.toNat_ofNat] <;> omega

/-- A frame's payload, check value and what follows, taken apart by their lengths. -/
theorem frame_tail (p extra : List Byte) (v : Nat) :
    (p ++ (enc2 v ++ extra)).take p.length = p ∧ ((p ++ (enc2 v ++ extra)).drop p.length).take 2 = enc2 v := by
  refine ⟨List.take_left, ?_⟩
  rw [List.drop_left]
  rfl

/-- A whole header is judged by marker, length, completeness and check value (R156). -/
theorem judge_header : judge (m :: seq :: ack :: kind :: l0 :: l1 :: rest) =
    if m ≠ inboundMarker then .noFrame
    else if Config.maxPayload < l0.toNat + 256 * l1.toNat then .bad
    else if rest.length < l0.toNat + 256 * l1.toNat + 2 then .bad
    else if enc2 (checkValue ([m, seq, ack, kind, l0, l1] ++ rest.take (l0.toNat + 256 * l1.toNat))).toNat =
        (rest.drop (l0.toNat + 256 * l1.toNat)).take 2 then
      .good seq ack kind (rest.take (l0.toNat + 256 * l1.toNat))
    else .bad := rfl

theorem judge_noFrame_iff (sdi : List Byte) : judge sdi = .noFrame ↔ sdi.head? ≠ some 0x5C := by
  have marker : ∀ (m : Byte) (bs : List Byte), (m :: bs).head? ≠ some 0x5C ↔ m ≠ inboundMarker := fun m bs => by
    simp [inboundMarker]
  unfold judge
  split
  · rw [marker]
    split
    · next h => exact iff_of_true rfl h
    · next h => exact iff_of_false (by dsimp only; split_ifs <;> exact not_false) h
  · rw [marker]
    split
    · next h => exact iff_of_true rfl h
    · next h => exact iff_of_false Inbound.noConfusion h
  · simp

theorem judge_frame (hp : p.length ≤ 1040) :
    judge (withCheck ([0x5C, seq, ack, kind, BitVec.ofNat 8 p.length, BitVec.ofNat 8 (p.length / 256)] ++ p) ++ extra) =
      .good seq ack kind p := by
  have tail := frame_tail p extra
    (checkValue ([0x5C, seq, ack, kind, BitVec.ofNat 8 p.length, BitVec.ofNat 8 (p.length / 256)] ++ p)).toNat
  have room : ¬ Config.maxPayload < p.length := Nat.not_lt.mpr hp
  rw [withCheck, List.append_assoc, List.append_assoc]
  refine (judge_header (rest := p ++ (enc2 _ ++ extra))).trans ?_
  rw [lengthBytes hp, tail.1, tail.2, if_neg (by decide), if_neg room, if_neg (by simp [enc2_length]; omega), if_pos rfl]

/-- What is read as good is a frame with its check value, and bytes behind it. -/
theorem frame_of_judge {sdi : List Byte} (h : judge sdi = .good seq ack kind p) : p.length ≤ 1040 ∧ ∃ extra,
    sdi = withCheck ([0x5C, seq, ack, kind, BitVec.ofNat 8 p.length, BitVec.ofNat 8 (p.length / 256)] ++ p) ++ extra := by
  unfold judge at h
  split at h
  · next m seq' ack' kind' l0 l1 rest =>
    dsimp only at h
    split at h
    · cases h
    split at h
    · cases h
    split at h
    · cases h
    split at h
    · next marker fits complete check =>
      obtain ⟨rfl, rfl, rfl, rfl⟩ := Inbound.good.inj h
      have length : (rest.take (l0.toNat + 256 * l1.toNat)).length = l0.toNat + 256 * l1.toNat := by
        rw [List.length_take]
        omega
      obtain ⟨low, high⟩ := lengthBytes_inv l0 l1
      obtain rfl : m = 0x5C := not_not.mp marker
      refine ⟨length.le.trans (Nat.not_lt.mp fits), (rest.drop (l0.toNat + 256 * l1.toNat)).drop 2, ?_⟩
      rw [length, low, high, withCheck, check, List.append_assoc, List.append_assoc,
        List.take_append_drop, List.take_append_drop]
      rfl
    · cases h
  · split at h <;> cases h
  · cases h

end

/-- Settles O7. -/
theorem inboundFramesJudged : Obligations.InboundFramesJudged :=
  ⟨judge_noFrame_iff, fun _ _ _ _ _ => judge_frame, fun _ _ _ _ _ => frame_of_judge⟩

end Sys2Proof.Machine

/-! ## The end of an exchange, step by step (R153, R155, R157, R158, R163, R164) -/

namespace Sys2Proof.Machine

/-! ### What the inbound frame removes -/

/-- The bytes were judged a good frame (R156). -/
def Inbound.isGood : Inbound → Bool
  | .good _ _ _ _ => true
  | _ => false

/-- The entries that an inbound frame removes, and those that it leaves: the acknowledgement of a good frame alone removes any
(R163). -/
def Inbound.cut (fr : Inbound) (es : List Entry) : List Entry × List Entry :=
  match fr with
  | .good _ ack _ _ => (splitAck ack es).getD ([], es)
  | _ => ([], es)

theorem isGood_iff {fr : Inbound} : fr.isGood = true ↔ ∃ seq ack kind p, fr = .good seq ack kind p := by
  cases fr with
  | good seq ack kind p => exact iff_of_true rfl ⟨seq, ack, kind, p, rfl⟩
  | _ => simp [Inbound.isGood]

section
variable {fr : Inbound} {es : List Entry}

theorem cut_append (fr : Inbound) (es : List Entry) : (fr.cut es).1 ++ (fr.cut es).2 = es := by
  cases fr with
  | good seq ack kind p =>
    rw [Inbound.cut]
    cases h : splitAck ack es with
    | none => rfl
    | some x => exact (splitAck_some h).1.symm
  | _ => rfl

theorem cut_of_not_good (h : fr.isGood = false) (es : List Entry) : fr.cut es = ([], es) := by
  cases fr with
  | good seq ack kind p => cases h
  | _ => rfl

/-- The oldest carried entry with the number acknowledged ends the run removed (R163). -/
theorem splitAck_append {a : BitVec 8} {front back : List Entry} {e : Entry} (hf : ∀ x ∈ front, x.seq ≠ a)
    (hc : e.carried = true) (hq : e.seq = a) : splitAck a (front ++ e :: back) = some (front ++ [e], back) := by
  induction front with
  | nil => exact if_pos ⟨hc, hq⟩
  | cons x front ih =>
    have other : ¬ (x.carried = true ∧ x.seq = a) := fun h => hf x List.mem_cons_self h.2
    rw [List.cons_append, splitAck, if_neg other, ih fun y hy => hf y (List.mem_cons_of_mem _ hy)]
    rfl

end

/-- The due entry that is left when the entries `gone` have been removed (R163). -/
def dueAfter (due : Option (BitVec 8)) (gone : List Entry) : Option (BitVec 8) := due.filter fun q => !gone.any fun e => e.seq = q

theorem dueAfter_nil (due : Option (BitVec 8)) : dueAfter due [] = due := by
  cases due <;> rfl

theorem dueAfter_eq_some_iff {due : Option (BitVec 8)} {gone : List Entry} {q : BitVec 8} :
    dueAfter due gone = some q ↔ due = some q ∧ ∀ e ∈ gone, e.seq ≠ q := by
  simp [dueAfter, Option.filter_eq_some_iff]

theorem due_cleared_eq (due : Option (BitVec 8)) (gone : List Entry) :
    (if due.any (fun q => gone.any fun e => e.seq = q) then none else due) = dueAfter due gone := by
  cases due with
  | none => rfl
  | some q =>
    rw [dueAfter, Option.filter_some, Option.any_some]
    cases gone.any fun e => e.seq = q <;> rfl

/-! ### Steps 1 to 5 in one -/

/-- The entries that an exchange with the outbound frame `f` and the bytes `sdi` clocked in removes (R155, step 3). -/
def State.removed (s : State) (f : OutFrame) (sdi : List Byte) : List Entry := ((judge sdi).cut (s.marked f sdi)).1

/-- The entries that it leaves. -/
def State.remaining (s : State) (f : OutFrame) (sdi : List Byte) : List Entry := ((judge sdi).cut (s.marked f sdi)).2

/-- The port after the acknowledgement, before the due check. -/
def State.acknowledged (s : State) (f : OutFrame) (sdi : List Byte) : Port :=
  { s.port with
    outbound := s.remaining f sdi
    due := dueAfter s.port.due (s.removed f sdi) }

/-- The part after steps 1 to 5 of R155. -/
def State.settled (s : State) (f : OutFrame) (sdi : List Byte) : State :=
  { s with
    port := ((s.acknowledged f sdi).dueCheck (judge sdi).isGood).setDue (carriedBy f sdi)
    freeList := s.freeList ++ (s.removed f sdi).filterMap Entry.page }

/-- Step 6: what becomes of the frame judged. -/
def State.dealFrame (s : State) (fr : Inbound) : State × Fate :=
  match fr with
  | .noFrame => (s, .noFrame)
  | .bad => (s, .bad)
  | .good seq _ kind p => s.dealRequest seq kind p

/-- Step 7, with CSn high. -/
def State.endWith (s : State) (fate : Fate) : State :=
  s.modPort fun p => { p.setFlags fate with csnLow := false, frame := none }

section
variable (s : State) (f : OutFrame) (sdi : List Byte)

theorem settleOutbound_eq : s.port.settleOutbound (carriedBy f sdi) = { s.port with outbound := s.marked f sdi } := by
  unfold carriedBy State.marked
  split
  · next complete =>
    cases f.carries with
    | none => simp [Port.settleOutbound]
    | some q => simp [Port.settleOutbound, markCarried, complete, eq_comm]
  · next cut => simp [Port.settleOutbound, cut]

theorem acknowledge_eq (u : State) (ack : BitVec 8) (cut : List Entry × List Entry)
    (h : (splitAck ack u.port.outbound).getD ([], u.port.outbound) = cut) :
    u.acknowledge ack =
      (u.modPort fun p => { p with outbound := cut.2, due := dueAfter p.due cut.1 }).release (cut.1.filterMap Entry.page) := by
  subst h
  rw [State.acknowledge]
  cases splitAck ack u.port.outbound with
  | none => simp [State.modPort, State.release, dueAfter_nil]
  | some x => simp only [due_cleared_eq, Option.getD_some]

theorem endExchange_eq : s.endExchange f sdi =
    ((s.settled f sdi).dealFrame (judge sdi)).1.endWith ((s.settled f sdi).dealFrame (judge sdi)).2 := by
  have sent : (s.modPort fun p => p.settleOutbound (carriedBy f sdi)) =
      { s with port := { s.port with outbound := s.marked f sdi } } := by
    rw [State.modPort, settleOutbound_eq]
  have inbound : ({ s with port := { s.port with outbound := s.marked f sdi } } : State).settleInbound (carriedBy f sdi)
      (judge sdi) = (s.settled f sdi).dealFrame (judge sdi) := by
    rw [State.settled, State.acknowledged, State.removed, State.remaining]
    cases judge sdi with
    | good seq ack kind p =>
      rw [State.settleInbound, acknowledge_eq _ ack _ rfl]
      rfl
    | _ => simp [State.settleInbound, State.dealFrame, Inbound.cut, State.modPort, Inbound.isGood, dueAfter_nil]
  rw [State.endExchange, sent, inbound]
  rfl

end

end Sys2Proof.Machine

/-! ## What the end of an exchange leaves (R153, R155, R157, R158, R163, R164) -/

namespace Sys2Proof.Machine

/-! ### The due check and the request -/

/-- R164: the port holds a due entry, and the exchange brought no good frame or left that entry standing. -/
def Port.GoesBack (p : Port) (good : Bool) : Prop :=
  ∃ q, p.due = some q ∧ (good = false ∨ ∃ e ∈ p.outbound, e.seq = q)

section
variable {p : Port} {good : Bool}

theorem dueCheck_of_goesBack (h : p.GoesBack good) : p.dueCheck good = p.goBack := by
  obtain ⟨q, due, reason⟩ := h
  rw [Port.dueCheck, due]
  refine if_pos (Bool.or_eq_true_iff.mpr (reason.imp (fun h => by rw [h]; rfl) fun ⟨e, he, seq⟩ => ?_))
  exact List.any_eq_true.mpr ⟨e, he, decide_eq_true seq⟩

theorem dueCheck_of_not_goesBack (h : ¬ p.GoesBack good) : p.dueCheck good = p := by
  unfold Port.dueCheck
  split
  · rfl
  · next q due =>
    refine if_neg fun e => h ⟨q, due, (Bool.or_eq_true_iff.mp e).imp (fun e => by simpa using e) fun e => ?_⟩
    obtain ⟨x, hx, seq⟩ := List.any_eq_true.mp e
    exact ⟨x, hx, of_decide_eq_true seq⟩

/-- The due check touches the sending marks and the due entry alone. -/
theorem dueCheck_leaves (p : Port) (good : Bool) :
    p.dueCheck good = { p with outbound := (p.dueCheck good).outbound, due := (p.dueCheck good).due } := by
  by_cases h : p.GoesBack good
  · rw [dueCheck_of_goesBack h]; rfl
  · rw [dueCheck_of_not_goesBack h]

theorem dueCheck_fixed (p : Port) (good : Bool) : (p.dueCheck good).outbound.map (fun e => (e.seq, e.body, e.carried)) =
    p.outbound.map fun e => (e.seq, e.body, e.carried) := by
  by_cases h : p.GoesBack good
  · rw [dueCheck_of_goesBack h, goBack_fixed]
  · rw [dueCheck_of_not_goesBack h]

end

/-- R157: everything that dealing with the frame judged can do. -/
theorem dealFrame_cases (u : State) (fr : Inbound) : (u.dealFrame fr).1 = u ∨
    ∃ seq ack kind payload, fr = .good seq ack kind payload ∧ kind ≠ nopKind ∧ seq = nextSeq u.port.lastIn ∧
      0 < u.room ∧ (u.dealFrame fr).1 = u.modPort fun p => { p with
        inbound := p.inbound ++ [{ seq := seq, kind := kind, payload := payload }], lastIn := seq } := by
  cases fr with
  | good seq ack kind payload =>
    rcases dealRequest_cases u seq kind payload with h | ⟨h, hk, hq, room⟩
    · exact .inl h
    · exact .inr ⟨seq, ack, kind, payload, rfl, hk, hq, room, congrArg Prod.fst h⟩
  | _ => exact .inl rfl

section
variable (s : State) (f : OutFrame) (sdi : List Byte)

/-! ### The queue, the due entry and the free list -/

/-- Steps 6 and 7 leave the outbound queue, the due entry, the numbering and the free list (R157, R158). -/
theorem endExchange_leaves : (s.endExchange f sdi).port.outbound = (s.settled f sdi).port.outbound ∧
    (s.endExchange f sdi).port.due = (s.settled f sdi).port.due ∧
    (s.endExchange f sdi).port.lastOut = (s.settled f sdi).port.lastOut ∧
    (s.endExchange f sdi).freeList = (s.settled f sdi).freeList := by
  rw [endExchange_eq]
  rcases dealFrame_cases (s.settled f sdi) (judge sdi) with h | ⟨seq, ack, kind, payload, -, -, -, -, h⟩
  all_goals
    rw [h]
    exact ⟨rfl, rfl, rfl, rfl⟩

theorem endExchange_outbound : (s.endExchange f sdi).port.outbound =
    ((s.acknowledged f sdi).dueCheck (judge sdi).isGood).outbound := by
  obtain ⟨outbound, -⟩ := endExchange_leaves s f sdi
  exact outbound

theorem endExchange_due : (s.endExchange f sdi).port.due = (s.settled f sdi).port.due := by
  obtain ⟨-, due, -⟩ := endExchange_leaves s f sdi
  exact due

theorem endExchange_freeList : (s.endExchange f sdi).freeList = s.freeList ++ (s.removed f sdi).filterMap Entry.page := by
  obtain ⟨-, -, -, freeList⟩ := endExchange_leaves s f sdi
  exact freeList

theorem settled_port : (s.settled f sdi).port = { s.port with
    outbound := (s.settled f sdi).port.outbound, due := (s.settled f sdi).port.due } := by
  have leaves := dueCheck_leaves (s.acknowledged f sdi) (judge sdi).isGood
  exact congrArg (fun p : Port => p.setDue (carriedBy f sdi)) leaves

theorem endExchange_lastOut : (s.endExchange f sdi).port.lastOut = s.port.lastOut := by
  obtain ⟨-, -, lastOut, -⟩ := endExchange_leaves s f sdi
  rw [lastOut, settled_port]

/-- Numbers, bodies and carried flags stay as they are: the go-back is in the sending marks alone (R164). -/
theorem endExchange_fixed : (s.endExchange f sdi).port.outbound.map (fun e => (e.seq, e.body, e.carried)) =
    (s.remaining f sdi).map fun e => (e.seq, e.body, e.carried) := by
  rw [endExchange_outbound, dueCheck_fixed]
  rfl

theorem endExchange_numbers : (s.endExchange f sdi).port.outbound.map (fun e => e.seq) =
    (s.remaining f sdi).map fun e => e.seq := by
  have fixed := congrArg (List.map Prod.fst) (endExchange_fixed s f sdi)
  rwa [List.map_map, List.map_map] at fixed

theorem removed_append_remaining : s.removed f sdi ++ s.remaining f sdi = s.marked f sdi := cut_append _ _

theorem marked_fixed : (s.marked f sdi).map (fun e => (e.seq, e.body)) = s.port.outbound.map fun e => (e.seq, e.body) := by
  rw [State.marked, List.map_map]
  refine List.map_congr_left fun e _ => ?_
  rw [Function.comp_apply]
  split <;> rfl

theorem marked_numbers : (s.marked f sdi).map (fun e => e.seq) = s.port.outbound.map fun e => e.seq := by
  have fixed := congrArg (List.map Prod.fst) (marked_fixed s f sdi)
  rwa [List.map_map, List.map_map] at fixed

end

section
variable {s : State} {f : OutFrame} {sdi : List Byte}

/-- The end of an exchange in progress. -/
theorem exec_endOfExchange (low : s.port.csnLow = true) (hf : s.port.frame = some f) :
    exec (.endOfExchange sdi) s = .next (s.endExchange f sdi) := by
  change execEndOfExchange sdi s = _
  rw [execEndOfExchange, if_pos low, hf]

theorem Port.Ok.low {p : Port} (h : p.Ok) (hf : p.frame = some f) : p.csnLow = true := (h.frame f hf).1

theorem exec_endOfExchange_of_ok (hs : s.PortOk) (hf : s.port.frame = some f) :
    exec (.endOfExchange sdi) s = .next (s.endExchange f sdi) :=
  exec_endOfExchange ((portOk_iff.mp hs).low hf) hf

theorem marked_nodup (hs : s.PortOk) : ((s.marked f sdi).map fun e => e.seq).Nodup :=
  marked_numbers s f sdi ▸ (portOk_iff.mp hs).link.nodup

end

/-! ### The acknowledgement -/

section
variable {s : State} {f : OutFrame} {sdi : List Byte} {seq ack kind : Byte} {p : List Byte}

theorem cut_named {front back : List Entry} {e : Entry} (hj : judge sdi = .good seq ack kind p)
    (nodup : ((s.marked f sdi).map fun e => e.seq).Nodup) (hm : s.marked f sdi = front ++ e :: back) (hc : e.carried = true)
    (hq : e.seq = ack) : s.removed f sdi = front ++ [e] ∧ s.remaining f sdi = back := by
  rw [hm, List.map_append] at nodup
  have ahead : ∀ x ∈ front, x.seq ≠ ack := fun x hx h =>
    (List.nodup_append.mp nodup).2.2 x.seq (List.mem_map_of_mem hx) e.seq (by simp) (h.trans hq.symm)
  rw [State.removed, State.remaining, hj, hm, Inbound.cut, splitAck_append ahead hc hq]
  exact ⟨rfl, rfl⟩

theorem cut_unnamed (hj : judge sdi = .good seq ack kind p) (h : ∀ e ∈ s.marked f sdi, e.carried = true → e.seq ≠ ack) :
    s.removed f sdi = [] ∧ s.remaining f sdi = s.marked f sdi := by
  have none : splitAck ack (s.marked f sdi) = none := splitAck_none.mpr fun e he hx => h e he hx.1 hx.2
  rw [State.removed, State.remaining, hj, Inbound.cut, none]
  exact ⟨rfl, rfl⟩

end

/-- Settles O8: the numbers of the entries are distinct, so the entry named ends the run that the model cuts off. -/
theorem acknowledgementRemovesRun : Obligations.AcknowledgementRemovesRun := by
  intro s f sdi seq ack kind p hs hf hj
  refine ⟨_, exec_endOfExchange_of_ok hs hf, fun front e back hm hc hq => ?_, fun h => ?_⟩
  · obtain ⟨removed, remaining⟩ := cut_named hj (marked_nodup hs) hm hc hq
    rw [endExchange_fixed, endExchange_freeList, removed, remaining]
    exact ⟨rfl, rfl⟩
  · obtain ⟨removed, remaining⟩ := cut_unnamed hj h
    rw [endExchange_fixed, endExchange_freeList, removed, remaining]
    exact ⟨rfl, List.append_nil _⟩

/-! ### The due entry -/

section
variable {s : State} {f : OutFrame} {sdi : List Byte} {q : BitVec 8}

theorem carriedBy_eq_some_iff : carriedBy f sdi = some q ↔ f.carries = some q ∧ f.bytes.length ≤ sdi.length := by
  unfold carriedBy
  split
  · next h => exact (and_iff_left h).symm
  · next h => exact iff_of_false (fun e => by cases e) fun e => h e.2

/-- The entry that the exchange carried whole is SENT (R153). -/
theorem marked_sent {e : Entry} (he : e ∈ s.marked f sdi) (hc : carriedBy f sdi = some e.seq) : e.sent = true := by
  obtain ⟨x, -, rfl⟩ := List.mem_map.mp he
  rw [carriedBy_eq_some_iff] at hc
  split
  · rfl
  · next h =>
    rw [if_neg h] at hc
    exact absurd hc h

theorem setDue_due_eq_some_iff {p : Port} {c : Option (BitVec 8)} :
    (p.setDue c).due = some q ↔ c = some q ∧ ∃ e ∈ p.outbound, e.seq = q ∧ e.sent = true := by
  simp [Port.setDue, Option.filter_eq_some_iff]

theorem remaining_subset {e : Entry} (he : e ∈ s.remaining f sdi) : e ∈ s.marked f sdi :=
  removed_append_remaining s f sdi ▸ List.mem_append_right _ he

/-- R164 in the terms of the state before and after: an entry that stands was not removed, since numbers are distinct. -/
theorem goesBack_iff (hs : s.PortOk) : (s.acknowledged f sdi).GoesBack (judge sdi).isGood ↔
    ∃ q, s.port.due = some q ∧ ((judge sdi).isGood = false ∨ ∃ e ∈ s.remaining f sdi, e.seq = q) := by
  refine exists_congr fun q => ?_
  have due : (s.acknowledged f sdi).due = some q ↔ s.port.due = some q ∧ ∀ e ∈ s.removed f sdi, e.seq ≠ q :=
    dueAfter_eq_some_iff
  rw [due, and_assoc]
  refine and_congr_right fun _ => ⟨fun h => h.2, fun h => ⟨fun e he seq => ?_, h⟩⟩
  rcases h with bad | ⟨x, hx, same⟩
  · rw [State.removed, cut_of_not_good bad] at he
    cases he
  · have nodup := marked_nodup (f := f) (sdi := sdi) hs
    rw [← removed_append_remaining, List.map_append] at nodup
    exact (List.nodup_append.mp nodup).2.2 e.seq (List.mem_map_of_mem he) x.seq (List.mem_map_of_mem hx) (seq.trans same.symm)

theorem endExchange_of_goesBack (h : (s.acknowledged f sdi).GoesBack (judge sdi).isGood) :
    (s.endExchange f sdi).port.due = none ∧ ∀ e ∈ (s.endExchange f sdi).port.outbound, e.sent = false := by
  have unsent : ∀ e ∈ (s.acknowledged f sdi).goBack.outbound, e.sent = false := fun e he => by
    obtain ⟨x, -, rfl⟩ := List.mem_map.mp he
    rfl
  rw [endExchange_due, endExchange_outbound, State.settled, dueCheck_of_goesBack h]
  refine ⟨Option.eq_none_iff_forall_ne_some.mpr fun q hq => ?_, unsent⟩
  obtain ⟨-, e, he, -, sent⟩ := setDue_due_eq_some_iff.mp hq
  rw [unsent e he] at sent
  cases sent

theorem endExchange_of_not_goesBack (h : ¬ (s.acknowledged f sdi).GoesBack (judge sdi).isGood) :
    (s.endExchange f sdi).port.outbound = s.remaining f sdi ∧ ∀ q, (s.endExchange f sdi).port.due = some q ↔
      carriedBy f sdi = some q ∧ ∃ e ∈ s.remaining f sdi, e.seq = q := by
  rw [endExchange_due, endExchange_outbound, State.settled, dueCheck_of_not_goesBack h]
  refine ⟨rfl, fun q => setDue_due_eq_some_iff.trans (and_congr_right fun carried => ?_)⟩
  refine exists_congr fun e => and_congr_right fun he => and_iff_left_of_imp fun seq => ?_
  exact marked_sent (remaining_subset he) (seq ▸ carried)

end

/-- Settles O9. -/
theorem dueEntryGoesBack : Obligations.DueEntryGoesBack := by
  intro s f sdi hs hf
  refine ⟨_, exec_endOfExchange_of_ok hs hf, ?_⟩
  intro good back
  have standing : ∀ q, (∃ e ∈ (s.endExchange f sdi).port.outbound, e.seq = q) ↔
      ∃ e ∈ s.remaining f sdi, e.seq = q := fun q => by
    have numbers := endExchange_numbers s f sdi
    rw [← List.mem_map (f := Entry.seq), ← List.mem_map (f := Entry.seq)]
    exact iff_of_eq (congrArg (q ∈ ·) numbers)
  have back_iff : back ↔ (s.acknowledged f sdi).GoesBack (judge sdi).isGood := by
    rw [goesBack_iff hs]
    refine exists_congr fun q => and_congr_right fun _ => or_congr ?_ (standing q)
    rw [← Bool.not_eq_true, isGood_iff]
  rw [back_iff]
  refine ⟨endExchange_of_goesBack, fun h => ?_⟩
  obtain ⟨outbound, due⟩ := endExchange_of_not_goesBack h
  rw [outbound]
  refine ⟨fun e he => remaining_subset he, fun q => ?_⟩
  rw [due, carriedBy_eq_some_iff, and_assoc]

end Sys2Proof.Machine

/-! ## The request and the flags at the end of an exchange, and every step keeps the port (R151, R155 to R159, R164) -/

namespace Sys2Proof.Machine

/-! ### What becomes of a request (R157) -/

section
variable {u : State} {seq kind : Byte} {p : List Byte}

theorem nextSeq_ne_self (q : BitVec 8) : nextSeq q ≠ q := by
  unfold nextSeq
  split
  · next e => rw [e]; decide
  · bv_omega

theorem dealRequest_nop (hk : kind = nopKind) : u.dealRequest seq kind p = (u, .nop) := if_pos hk

theorem dealRequest_duplicate (hk : kind ≠ nopKind) (hq : seq = u.port.lastIn) (h0 : u.port.lastIn ≠ 0) :
    u.dealRequest seq kind p = (u, .duplicate) := by
  rw [State.dealRequest, if_neg hk, if_pos ⟨hq, h0⟩]

theorem dealRequest_next (hk : kind ≠ nopKind) (hq : seq = nextSeq u.port.lastIn) : u.dealRequest seq kind p =
    if 0 < u.room then (u.modPort fun q => { q with
      inbound := q.inbound ++ [{ seq := seq, kind := kind, payload := p }], lastIn := seq }, .accepted)
    else (u, .full) := by
  have new : ¬ (seq = u.port.lastIn ∧ u.port.lastIn ≠ 0) := fun h => nextSeq_ne_self _ (hq.symm.trans h.1)
  rw [State.dealRequest, if_neg hk, if_neg new, if_pos hq]

theorem dealRequest_outOfSequence (hk : kind ≠ nopKind) (hq : seq ≠ nextSeq u.port.lastIn)
    (hL : seq ≠ u.port.lastIn ∨ u.port.lastIn = 0) : u.dealRequest seq kind p = (u, .outOfSequence) := by
  have new : ¬ (seq = u.port.lastIn ∧ u.port.lastIn ≠ 0) := fun h => hL.elim (fun n => n h.1) h.2
  rw [State.dealRequest, if_neg hk, if_neg new, if_neg hq]

end

section
variable {s v : State} {f : OutFrame} {sdi : List Byte} {seq ack kind : Byte} {p : List Byte} {fate : Fate}

theorem endExchange_of_dealRequest (hj : judge sdi = .good seq ack kind p)
    (h : (s.settled f sdi).dealRequest seq kind p = (v, fate)) : s.endExchange f sdi = v.endWith fate := by
  have dealt : (s.settled f sdi).dealFrame (judge sdi) = (v, fate) := hj ▸ h
  rw [endExchange_eq, dealt]

theorem settled_inbound (s : State) (f : OutFrame) (sdi : List Byte) :
    (s.settled f sdi).port.inbound = s.port.inbound ∧ (s.settled f sdi).port.lastIn = s.port.lastIn := by
  rw [settled_port]
  exact ⟨rfl, rfl⟩

/-- The request is not accepted: the inbound queue and the last accepted number stay, and the flags show its fate. -/
theorem endExchange_kept (h : s.endExchange f sdi = (s.settled f sdi).endWith fate) :
    ((s.endExchange f sdi).port.inbound = s.port.inbound ∧ (s.endExchange f sdi).port.lastIn = s.port.lastIn) ∧
      ((s.endExchange f sdi).port.lastBad, (s.endExchange f sdi).port.lastSeq, (s.endExchange f sdi).port.lastFull) =
        (fate == .bad, fate == .outOfSequence, fate == .full) := by
  rw [h]
  exact ⟨settled_inbound s f sdi, rfl⟩

theorem settled_room (s : State) (f : OutFrame) (sdi : List Byte) : (s.settled f sdi).room =
    8 - (s.port.inbound.length + (s.endExchange f sdi).port.outbound.countP Entry.isReply) := by
  rw [endExchange_outbound, State.room, (settled_inbound s f sdi).1]
  rfl

end

/-- Settles O10. -/
theorem requestOfGoodFrame : Obligations.RequestOfGoodFrame := by
  intro s f sdi seq ack kind p hs hf hj
  refine ⟨_, exec_endOfExchange_of_ok hs hf, ?_⟩
  intro room L next kept flags
  have lastIn : (s.settled f sdi).port.lastIn = L := (settled_inbound s f sdi).2
  have inRoom : (s.settled f sdi).room = room := settled_room s f sdi
  have unaccepted : ∀ fate, (s.settled f sdi).dealRequest seq kind p = (s.settled f sdi, fate) →
      kept ∧ flags = (fate == .bad, fate == .outOfSequence, fate == .full) := fun fate h =>
    endExchange_kept (endExchange_of_dealRequest hj h)
  refine ⟨fun hk => ?_, fun hk hq h0 => ?_, fun hk hq hr => ?_, fun hk hq hr => ?_, fun hk hq hL => ?_⟩
  · exact unaccepted .nop (dealRequest_nop hk)
  · exact unaccepted .duplicate (dealRequest_duplicate hk (lastIn ▸ hq) (lastIn ▸ h0))
  · have accepted := dealRequest_next (p := p) hk (u := s.settled f sdi) (hq.trans (congrArg nextSeq lastIn.symm))
    rw [if_pos (inRoom ▸ hr)] at accepted
    dsimp only [flags]
    rw [endExchange_of_dealRequest hj accepted, ← (settled_inbound s f sdi).1]
    exact ⟨rfl, rfl, rfl⟩
  · have full := dealRequest_next (p := p) hk (u := s.settled f sdi) (hq.trans (congrArg nextSeq lastIn.symm))
    rw [if_neg (by rw [inRoom, hr]; exact Nat.lt_irrefl 0)] at full
    exact unaccepted .full full
  · have apart : seq ≠ nextSeq (s.settled f sdi).port.lastIn := fun e => hq (e.trans (congrArg nextSeq lastIn))
    exact unaccepted .outOfSequence (dealRequest_outOfSequence hk apart (lastIn ▸ hL))

/-! ### Nothing but the port and the free list -/

section
variable {s : State} {f : OutFrame} {sdi : List Byte}

theorem endExchange_high (s : State) (f : OutFrame) (sdi : List Byte) :
    (s.endExchange f sdi).port.csnLow = false ∧ (s.endExchange f sdi).port.frame = none := by
  rw [endExchange_eq]
  exact ⟨rfl, rfl⟩

/-- An abandoned exchange ends with nothing evaluated (R151, R158). -/
theorem exec_endOfExchange_abandoned (low : s.port.csnLow = true) (hf : s.port.frame = none) :
    exec (.endOfExchange sdi) s = .next { s with
      port := { s.port with lastBad := false, lastSeq := false, lastFull := false, csnLow := false } } := by
  change execEndOfExchange sdi s = _
  rw [execEndOfExchange, if_pos low, hf]
  rfl

theorem not_good_of (h : judge sdi = .noFrame ∨ judge sdi = .bad) : (judge sdi).isGood = false := by
  rcases h with h | h <;> rw [h] <;> rfl

/-- Without a good frame no entry leaves. -/
theorem cut_of_none_good (h : (judge sdi).isGood = false) : s.removed f sdi = [] ∧ s.remaining f sdi = s.marked f sdi := by
  rw [State.removed, State.remaining, cut_of_not_good h]
  exact ⟨rfl, rfl⟩

theorem endExchange_entries (h : (judge sdi).isGood = false) :
    (s.endExchange f sdi).port.outbound.map (fun e => (e.seq, e.body)) = s.port.outbound.map fun e => (e.seq, e.body) := by
  have fixed := congrArg (List.map fun x => (x.1, x.2.1)) (endExchange_fixed s f sdi)
  rw [List.map_map, List.map_map, (cut_of_none_good h).2] at fixed
  exact fixed.trans (marked_fixed s f sdi)

end

/-- Settles O11. -/
theorem endOfExchangeTouchesPortAlone : Obligations.EndOfExchangeTouchesPortAlone := by
  intro s sdi low
  cases hf : s.port.frame with
  | none =>
    exact ⟨_, exec_endOfExchange_abandoned low hf, rfl, rfl, hf, rfl, fun _ => rfl, fun f e => (by cases e)⟩
  | some f =>
    obtain ⟨high, done⟩ := endExchange_high s f sdi
    refine ⟨_, exec_endOfExchange low hf, endExchange_exchanged s f sdi, high, done, endExchange_lastOut s f sdi,
      fun e => (by cases e), fun f' e h => ?_⟩
    cases e
    have freeList := endExchange_freeList s f sdi
    rw [(cut_of_none_good (not_good_of h)).1, List.filterMap_nil, List.append_nil] at freeList
    have entries := endExchange_entries (s := s) (f := f) (not_good_of h)
    rcases h with h | h
    · obtain ⟨⟨inbound, lastIn⟩, flags⟩ := endExchange_kept (s := s) (f := f) (sdi := sdi) (fate := .noFrame)
        (by rw [endExchange_eq, h]; rfl)
      obtain ⟨bad, outOfSequence, full⟩ : _ ∧ _ ∧ _ := by simpa using flags
      exact ⟨inbound, lastIn, freeList, entries, by rw [bad, h]; decide, outOfSequence, full⟩
    · obtain ⟨⟨inbound, lastIn⟩, flags⟩ := endExchange_kept (s := s) (f := f) (sdi := sdi) (fate := .bad)
        (by rw [endExchange_eq, h]; rfl)
      obtain ⟨bad, outOfSequence, full⟩ : _ ∧ _ ∧ _ := by simpa using flags
      exact ⟨inbound, lastIn, freeList, entries, by rw [bad, h]; decide, outOfSequence, full⟩

/-! ### The promises at the end of an exchange -/

/-- Counts of entries by what they carry do not see numbers and marks. -/
theorem countP_eq_of_bodies {g : Entry → Bool} (hg : ∀ a b, a.body = b.body → g a = g b) {es fs : List Entry}
    (h : es.map Entry.body = fs.map Entry.body) : es.countP g = fs.countP g := by
  induction es generalizing fs with
  | nil => rw [List.map_eq_nil_iff.mp h.symm]
  | cons e es ih =>
    obtain ⟨x, xs, rfl, body, bodies⟩ := List.map_eq_cons_iff.mp h.symm
    rw [List.countP_cons, List.countP_cons, ih bodies.symm, hg e x body.symm]

theorem isReply_congr (a b : Entry) (h : a.body = b.body) : a.isReply = b.isReply := by
  rw [Entry.isReply, Entry.isReply, h]

theorem isReport_congr (a b : Entry) (h : a.body = b.body) : a.isReport = b.isReport := congrArg not (isReply_congr a b h)

section
variable {s : State} {f : OutFrame} {sdi : List Byte}

theorem marked_of_none (h : carriedBy f sdi = none) : s.marked f sdi = s.port.outbound := by
  have same := congrArg Port.outbound (settleOutbound_eq s f sdi)
  rw [h] at same
  exact same.symm

theorem marked_of_some {q : BitVec 8} (h : carriedBy f sdi = some q) : s.marked f sdi = markCarried q s.port.outbound := by
  have same := congrArg Port.outbound (settleOutbound_eq s f sdi)
  rw [h] at same
  exact same.symm

theorem markCarried_of_notMem {q : BitVec 8} {es : List Entry} (h : q ∉ es.map Entry.seq) : markCarried q es = es :=
  (List.map_congr_left fun e he => if_neg fun (same : e.seq = q) => h (same ▸ List.mem_map_of_mem he)).trans (List.map_id' es)

theorem markCarried_split {front back : List Entry} {e : Entry} (h : ((front ++ e :: back).map Entry.seq).Nodup) :
    markCarried e.seq (front ++ e :: back) = front ++ { e with sent := true, carried := true } :: back := by
  rw [List.map_append, List.map_cons] at h
  obtain ⟨-, tail, apart⟩ := List.nodup_append.mp h
  have ahead : e.seq ∉ front.map Entry.seq := fun he => apart _ he _ List.mem_cons_self rfl
  have behind : e.seq ∉ back.map Entry.seq := (List.nodup_cons.mp tail).1
  have mark : markCarried e.seq (e :: back) = { e with sent := true, carried := true } :: markCarried e.seq back :=
    congrArg (· :: markCarried e.seq back) (if_pos rfl)
  rw [markCarried, List.map_append, ← markCarried, ← markCarried, mark, markCarried_of_notMem ahead,
    markCarried_of_notMem behind]

/-- The entry that the frame in progress carries is the one at the send cursor, so the marks stay in order (R152, R153). -/
theorem marked_inOrder (hs : s.port.Ok) (hf : s.port.frame = some f) : InOrder (s.marked f sdi) s.port.lastOut := by
  cases hc : carriedBy f sdi with
  | none => exact marked_of_none (s := s) hc ▸ hs.link.entries
  | some q =>
    obtain ⟨-, carries⟩ := hs.frame f hf
    obtain ⟨e, cursor, rfl⟩ := carries q (carriedBy_eq_some_iff.mp hc).1
    obtain ⟨-, front, back, split, ahead⟩ := List.find?_eq_some_iff_append.mp cursor
    have nodup := hs.link.nodup
    have entries := hs.link.entries
    rw [split] at nodup entries
    rw [marked_of_some hc, split, markCarried_split nodup]
    exact entries.mark fun x hx => by simpa using ahead x hx

theorem remaining_suffix (s : State) (f : OutFrame) (sdi : List Byte) : s.remaining f sdi <:+ s.marked f sdi :=
  ⟨s.removed f sdi, removed_append_remaining s f sdi⟩

/-- No more entries of either kind remain than stood. -/
theorem settled_countP_le {g : Entry → Bool} (hg : ∀ a b, a.body = b.body → g a = g b) :
    (s.settled f sdi).port.outbound.countP g ≤ s.port.outbound.countP g := by
  have fixed := congrArg (List.map fun x => x.2.1) (dueCheck_fixed (s.acknowledged f sdi) (judge sdi).isGood)
  have marked := congrArg (List.map Prod.snd) (marked_fixed s f sdi)
  rw [List.map_map, List.map_map] at fixed marked
  calc (s.settled f sdi).port.outbound.countP g
      = (s.remaining f sdi).countP g := countP_eq_of_bodies hg fixed
    _ ≤ (s.marked f sdi).countP g := (remaining_suffix s f sdi).sublist.countP_le
    _ = s.port.outbound.countP g := countP_eq_of_bodies hg marked

theorem settled_link (hs : s.port.Ok) (hf : s.port.frame = some f) : (s.settled f sdi).port.LinkOk := by
  obtain ⟨inbound, lastIn⟩ := settled_inbound s f sdi
  have lastOut : (s.settled f sdi).port.lastOut = s.port.lastOut := by rw [settled_port]
  have remaining : InOrder (s.remaining f sdi) s.port.lastOut := (marked_inOrder hs hf).suffix (remaining_suffix s f sdi)
  have entries : InOrder ((s.acknowledged f sdi).dueCheck (judge sdi).isGood).outbound s.port.lastOut := by
    by_cases h : (s.acknowledged f sdi).GoesBack (judge sdi).isGood
    · rw [dueCheck_of_goesBack h]
      exact remaining.unsent
    · rw [dueCheck_of_not_goesBack h]
      exact remaining
  exact {
    requests := by
      rw [inbound]
      exact (Nat.add_le_add_left (settled_countP_le isReply_congr) _).trans hs.link.requests
    reports := (settled_countP_le isReport_congr).trans hs.link.reports
    inboundRun := by
      rw [inbound, lastIn]
      exact hs.link.inboundRun
    noNop := by
      rw [inbound]
      exact hs.link.noNop
    entries := by
      rw [lastOut]
      exact entries
    due := fun q hq => (setDue_due_eq_some_iff.mp hq).2 }

/-- An accepted request finds room, its number is the next one, and its frame was judged good (R156, R157, R159). -/
theorem dealFrame_link {u : State} (hu : u.port.LinkOk) (sdi : List Byte) : (u.dealFrame (judge sdi)).1.port.LinkOk := by
  rcases dealFrame_cases u (judge sdi) with h | ⟨seq, ack, kind, payload, hj, hk, rfl, room, h⟩ <;> rw [h]
  · exact hu
  · refine { hu with requests := ?_, inboundRun := ?_, noNop := fun r hr => ?_ }
    · have room : 0 < 8 - (u.port.inbound.length + u.port.outbound.countP Entry.isReply) := room
      change (u.port.inbound ++ [_]).length + u.port.outbound.countP Entry.isReply ≤ 8
      rw [List.length_append, List.length_singleton]
      omega
    · change seqRun ((u.port.inbound ++ [_]).map _) _ = true
      rw [List.map_append]
      exact seqRun_snoc hu.inboundRun
    · rcases List.mem_append.mp hr with hr | hr
      · exact hu.noNop r hr
      · rw [List.mem_singleton.mp hr]
        exact ⟨hk, (frame_of_judge hj).1⟩

theorem endWith_ok {u : State} (hu : u.port.LinkOk) (fate : Fate) : (u.endWith fate).port.Ok where
  link := { hu with }
  frame g hg := by cases hg
  flags := by cases fate <;> rfl

theorem endExchange_ok (hs : s.port.Ok) (hf : s.port.frame = some f) : (s.endExchange f sdi).port.Ok := by
  rw [endExchange_eq]
  exact endWith_ok (dealFrame_link (settled_link hs hf) sdi) _

theorem exec_endOfExchange_ok {t : State} (hs : s.port.Ok) (h : exec (.endOfExchange sdi) s = .next t) : t.port.Ok := by
  cases low : s.port.csnLow with
  | false =>
    cases h
    rw [if_neg (by rw [low]; exact Bool.false_ne_true)]
    exact hs
  | true =>
    cases hf : s.port.frame with
    | none =>
      cases (exec_endOfExchange_abandoned low hf).symm.trans h
      exact ⟨{ hs.link with }, fun g hg => (by cases hf.symm.trans hg), rfl⟩
    | some f =>
      cases (exec_endOfExchange low hf).symm.trans h
      exact endExchange_ok hs hf

/-! ### Every step -/

theorem exec_resetFull_ok {t : State} (hs : s.port.Ok) (h : exec .resetFull s = .next t) : t.port.Ok := by
  cases h
  rcases State.takeKind_cases s .reset isResetFull fun _ s => s.fullReset .request s.ovr.level s.port.csnLow with
    h | ⟨r, rest, hin, -, -, ⟨-, h⟩ | ⟨-, h⟩⟩ <;> rw [h]
  · exact hs
  · exact hs.answered hin _ _
  · exact afterReset_ok _ _

theorem exec_portOk {c : Instr} {t : State} (hs : s.port.Ok) (h : exec c s = .next t) : t.port.Ok := by
  by_cases full : c = .resetFull
  · exact exec_resetFull_ok hs (full ▸ h)
  by_cases pin : ∃ lv b, c = .pinReset lv b
  · obtain ⟨lv, b, rfl⟩ := pin
    cases h
    exact afterReset_ok _ _
  by_cases exchange : ∃ sdi, c = .endOfExchange sdi
  · obtain ⟨sdi, rfl⟩ := exchange
    exact exec_endOfExchange_ok hs h
  exact portStep_ok (exec_portStep h full (fun lv b e => pin ⟨lv, b, e⟩) fun sdi e => exchange ⟨sdi, e⟩) hs

end

/-- Settles O53: the promises read the port alone. Commands append one entry or compose a frame; the end of an exchange marks the
entry at the send cursor, cuts a run from the oldest and takes a request that finds room. -/
theorem stepKeepsPort : Obligations.StepKeepsPort := by
  intro s t hs h
  have ok := portOk_iff.mp hs
  refine portOk_iff.mpr ?_
  unfold step at h
  split at h
  · cases h; exact ok
  · next c rest _ => exact exec_portOk (s := { s with pending := rest }) ok h

end Sys2Proof.Machine

/-! ## The outbound frame (R131, R152, R154, R158, R175) -/

namespace Sys2Proof.Machine

/-- Each flag stands at its own bit (Table 10-3). -/
theorem flagBits_eq : ∀ a b c d e : Bool, flagBit a 0 ||| flagBit b 1 ||| flagBit c 2 ||| flagBit d 3 ||| flagBit e 4 =
    BitVec.ofNat 8 (a.toNat + 2 * b.toNat + 4 * c.toNat + 8 * d.toNat + 16 * e.toNat) := by decide

section
variable {s : State}

theorem headerFlags_eq (s : State) : s.headerFlags = BitVec.ofNat 8 (s.port.lastBad.toNat + 2 * s.port.lastSeq.toNat +
    4 * s.port.lastFull.toNat + 8 * s.ovr.latch.toNat + 16 * (decide (s.ovr.level = .asserted)).toNat) :=
  flagBits_eq _ _ _ _ _

theorem cursor_eq_none_iff : s.cursor = none ↔ ∀ e ∈ s.port.outbound, e.sent = true := by
  simp [State.cursor]

/-- The send cursor stands at the oldest UNSENT entry (Table 9-1). -/
theorem cursor_of_split {front back : List Entry} {e : Entry} (hs : s.port.outbound = front ++ e :: back)
    (ahead : ∀ x ∈ front, x.sent = true) (unsent : e.sent = false) : s.cursor = some e :=
  List.find?_eq_some_iff_append.mpr ⟨by rw [unsent]; rfl, front, back, hs, fun x hx => by rw [ahead x hx]; rfl⟩

theorem composeOut_idle (h : s.cursor = none) : s.composeOut = {
    bytes := withCheck [0xA6, 0, s.port.lastIn, BitVec.ofNat 8 s.room, s.headerFlags, 0, 0, 0], carries := none } := by
  rw [State.composeOut, h]
  rfl

theorem composeOut_entry {e : Entry} (h : s.cursor = some e) : s.composeOut = {
    bytes := withCheck ([0xA6, e.seq, s.port.lastIn, BitVec.ofNat 8 s.room, s.headerFlags, e.body.kindCode,
      BitVec.ofNat 8 (e.body.payload s.mem).length, BitVec.ofNat 8 ((e.body.payload s.mem).length / 256)] ++
      e.body.payload s.mem)
    carries := some e.seq } := by
  rw [State.composeOut, h]
  rfl

theorem exec_csnFalling (high : s.port.csnLow = false) : exec .csnFalling s = .next { s with
    port := { s.port with csnLow := true, frame := some s.composeOut } } := by
  change execCsnFalling s = _
  rw [execCsnFalling, if_neg (by rw [high]; exact Bool.false_ne_true)]
  rfl

/-- R152: the frame is fixed for the whole exchange. -/
theorem PortStep.frame_fixed {t : State} {f : OutFrame} (h : PortStep s t) (hf : s.port.frame = some f)
    (low : s.port.csnLow = true) : t.port.frame = some f ∧ t.port.csnLow = true := by
  cases h with
  | stays h => exact h ▸ ⟨hf, low⟩
  | falls high _ => exact absurd (low.symm.trans high) Bool.noConfusion
  | answers r rest st b _ h => exact h ▸ ⟨hf, low⟩
  | reports x _ h => exact h ▸ ⟨hf, low⟩

end

/-- Settles O6. -/
theorem outboundFrameComposedAndFixed : Obligations.OutboundFrameComposedAndFixed := by
  refine ⟨fun s high => ?_, fun c s t f hf low pin exchange full h =>
    (exec_portStep h full pin exchange).frame_fixed hf low⟩
  intro room flags
  have flags_eq : s.headerFlags = flags := headerFlags_eq s
  refine ⟨fun sent => ?_, fun front e back split ahead unsent => ?_⟩
  · rw [exec_csnFalling high, composeOut_idle (cursor_eq_none_iff.mpr sent), flags_eq]
    rfl
  · rw [exec_csnFalling high, composeOut_entry (cursor_of_split split ahead unsent), flags_eq]
    rfl

end Sys2Proof.Machine

/-! ## The resets (R24, R25, R51, R52, R65, R66, R85, R86, R104, R122, R132, R147, R149, R169 to R172) -/

namespace Sys2Proof.Machine

section
variable {s u : State} {r : Request} {rest : List Request}

/-! ### A full reset -/

theorem fullReset_stream (u : State) (cause : ResetCause) (lv : LineLevel) (csnLow : Bool) (i : StreamNo) :
    (u.fullReset cause lv csnLow).stream i = (u.stream i).fullReset := u.stream_mapStreams Stream.fullReset i

theorem fullReset_lane (u : State) (cause : ResetCause) (lv : LineLevel) (csnLow : Bool) (l : LaneNo) :
    (u.fullReset cause lv csnLow).lane l = Lane.afterReset := vector_get_replicate _ l

theorem noOwners (h : u.owners = Owners.none) (l : LaneNo) (k : SlotNo) :
    u.txBase l k = none ∧ u.txOverlay l k = none ∧ u.rxBase l k = none := by
  simp [State.txBase, State.txOverlay, State.rxBase, h, Owners.none]

theorem desc_free (h : u.descs = Vector.replicate 48 Descriptor.blank) (x : Handle) : (u.desc x).state = .free := by
  rw [State.desc, h, vector_get_replicate]
  rfl

/-- A full reset of a part with the memory and the model's own parts of `s`. -/
theorem fullyReset_fullReset (cause : ResetCause) (lv : LineLevel) (csnLow : Bool) (mem : u.mem = s.mem)
    (pending : u.pending = s.pending) (freeCount : u.freeCount = s.freeCount) :
    s.FullyReset (u.fullReset cause lv csnLow) cause lv csnLow where
  streams i := by
    rw [fullReset_stream]
    exact ⟨rfl, rfl, rfl, rfl, rfl, rfl, rfl, rfl⟩
  owners := noOwners rfl
  descs := desc_free rfl
  freeList := by simp only [State.fullReset]
  mem := mem
  engine := ⟨rfl, rfl, rfl⟩
  domains d := by cases d <;> rfl
  lanes := fullReset_lane u cause lv csnLow
  released e := by subst e; exact ⟨rfl, rfl⟩
  asserted e := by subst e; exact ⟨rfl, rfl⟩
  port := rfl
  model := ⟨pending, freeCount⟩

/-- The reset state is a fixed point of the pin reset that it stands for (log entry 4). -/
theorem reset_fullReset : State.reset.fullReset .pin .deasserted false = State.reset := by
  have streams : (State.reset.mapStreams Stream.fullReset).streams = Vector.replicate 12 Stream.atPowerOn := by
    refine Vector.ext fun i hi => ?_
    have stream := State.reset.stream_mapStreams Stream.fullReset ⟨i, hi⟩
    have powered : State.reset.stream ⟨i, hi⟩ = Stream.atPowerOn := vector_get_replicate _ _
    rw [powered] at stream
    rw [Vector.getElem_replicate]
    exact stream
  rw [State.fullReset, streams]
  rfl

/-- Settles O3. -/
theorem pinResetLeavesResetValues : Obligations.PinResetLeavesResetValues :=
  ⟨fun lv csnLow _ => ⟨_, rfl, fullyReset_fullReset .pin lv csnLow rfl rfl rfl⟩,
    congrArg Host.Outcome.next reset_fullReset⟩

/-- Settles O4. -/
theorem fullResetRequestHasNoReply : Obligations.FullResetRequestHasNoReply := by
  intro s r rest hin hkind hp
  have acts := State.takeKind_act (k := .reset) (sel := isResetFull)
    (act := fun _ s => s.fullReset .request s.ovr.level s.port.csnLow) hin (kindOf_eq_some_iff.mpr hkind)
    (by rw [isResetFull, hp]; rfl) (by rw [hp]; rfl)
  exact ⟨_, congrArg Host.Outcome.next acts, fullyReset_fullReset .request s.ovr.level s.port.csnLow rfl rfl rfl⟩

/-! ### A streams reset -/

theorem exec_resetStreams_eq {b : Byte} (hin : s.port.inbound = r :: rest) (hkind : r.kind = 0x03) (hp : r.payload = [b])
    (hb : b ≠ 0) : exec .resetStreams s = .next (if b = 1 then (s.afterTaking rest).streamsReset.reply r .ok .nothing
      else (s.afterTaking rest).refuse .reset r .badField) := by
  have acts := State.takeKind_act (k := .reset) (sel := fun r => !isResetFull r) (act := fun r s =>
    if byteAt r.payload 0 = 1 then s.streamsReset.reply r .ok .nothing else s.refuse .reset r .badField)
    hin (kindOf_eq_some_iff.mpr hkind) (by rw [isResetFull, hp]; simpa using hb) (by rw [hp]; rfl)
  rw [hp] at acts
  exact congrArg Host.Outcome.next acts

theorem streamsReset_freeList_mem {p : PageNo} :
    p ∈ u.streamsReset.freeList ↔ ∀ e ∈ u.port.outbound, e.page ≠ some p := by
  simp [State.streamsReset, State.entryPages]

theorem streamsReset_freeList_sorted (u : State) : u.streamsReset.freeList.Pairwise (· < ·) := by
  simpa only [State.streamsReset] using (List.pairwise_lt_finRange 256).filter fun p => p ∉ u.entryPages

/-- Settles O5. -/
theorem streamsResetKeepsLinesAndPort : Obligations.StreamsResetKeepsLinesAndPort := by
  intro s r rest hin hkind
  refine ⟨fun hp => ⟨_, exec_resetStreams_eq hin hkind hp (by decide), ?_⟩, fun b hp h0 h1 => ?_⟩
  · rw [if_pos rfl]
    refine ⟨fun i => ?_, noOwners rfl, desc_free rfl, streamsReset_freeList_sorted (s.afterTaking rest),
      fun p => streamsReset_freeList_mem (u := s.afterTaking rest), rfl, rfl, ?_, rfl⟩
    · rw [State.reply_stream]
      have stream : (s.afterTaking rest).streamsReset.stream i = (s.stream i).streamsReset :=
        s.stream_mapStreams Stream.streamsReset i
      rw [stream]
      exact ⟨rfl, rfl, rfl, rfl, rfl, rfl, rfl, rfl⟩
    · exact List.filter_congr fun c _ => by cases c <;> rfl
  · rw [exec_resetStreams_eq hin hkind hp h0, if_neg h1]
    rfl

end

end Sys2Proof.Machine

/-! ## IDENTIFY and STATUS, and the invariants at reset (R167, R168, R172) -/

namespace Sys2Proof.Machine

/-! ### Two requests that report -/

/-- Settles O12. -/
theorem identifyReply : Obligations.IdentifyReply := by
  refine ⟨fun s r rest hin hkind hp => ?_, fun q m => by rfl⟩
  have acts := State.takeKind_act (k := .identify) (sel := anyRequest) (act := fun r s => s.reply r .ok .identify) hin
    (kindOf_eq_some_iff.mpr hkind) rfl (by rw [hp]; rfl)
  exact congrArg Host.Outcome.next acts

theorem descs_toList (s : State) : s.descs.toList = (List.finRange 48).map s.desc := by
  refine List.ext_getElem (by simp) fun i _ _ => ?_
  simp [State.desc, Vector.get]

/-- The FREE descriptors counted by handle (R47). -/
theorem freeDescs_eq (s : State) : s.freeDescs = (List.finRange 48).countP fun h => (s.desc h).state = .free := by
  rw [State.freeDescs, descs_toList, List.countP_map]
  rfl

/-- Settles O13: the view is the model's own, with the FREE descriptors counted by handle. -/
theorem statusReply : Obligations.StatusReply := by
  intro s r rest hin hkind hp
  have acts := State.takeKind_act (k := .status) (sel := anyRequest) (act := fun r s => s.reply r .ok (.status s.statusView)) hin
    (kindOf_eq_some_iff.mpr hkind) rfl (by rw [hp]; rfl)
  refine (congrArg Host.Outcome.next acts).trans ?_
  rw [← State.afterTaking, State.statusView, freeDescs_eq]
  rfl

/-! ### What a full reset meets -/

section
variable (s : State) (cause : ResetCause) (lv : LineLevel) (csnLow : Bool)

theorem fullReset_lanesOk : (s.fullReset cause lv csnLow).LanesOk := fun l => by
  rw [fullReset_lane]
  exact ⟨fun e => (by cases e), fun f hf => (by cases hf), fun e => (by cases e), fun a ha => (by cases ha)⟩

theorem fullReset_domainsOk : (s.fullReset cause lv csnLow).DomainsOk := ⟨.afterReset, .afterReset⟩

theorem fullReset_portOk : (s.fullReset cause lv csnLow).PortOk := portOk_iff.mpr (afterReset_ok cause csnLow)

end

/-- Settles O60: the reset state is one that a full reset leaves, and a full reset meets every invariant; the memory is the one
part that it leaves, and nothing has been written. -/
theorem invariantsHoldAtReset : Obligations.InvariantsHoldAtReset := by
  refine ⟨rfl, ?_⟩
  rw [← reset_fullReset]
  have control := fullReset_controlOk State.reset .pin .deasserted false
  have owners := fullReset_owners State.reset .pin .deasserted false
  exact ⟨fullReset_portOk _ _ _ _, control.rotation, control.override, fullReset_domainsOk _ _ _ _, fullReset_lanesOk _ _ _ _,
    claimsOk_iff.mpr (fullReset_reportsOk _ _ _ _), owners, poolsOk_iff_allOk.mpr ⟨owners, fullReset_allOk _ _ _ _⟩⟩

end Sys2Proof.Machine

/-! ## Requests that fit no row (R161, R176) -/

namespace Sys2Proof.Machine

section
variable {s : State} {r : Request} {rest : List Request} {c : Instr} {k : Kind} {p : List Byte}

/-! ### The rows and Table 10-4 -/

/-- A taking row names the code of the kind that its command takes, and the lengths that fit that kind. -/
theorem taking_takenKind {row : Taking} (h : row ∈ takings) :
    ∃ k, takenKind row.command = some k ∧ k.code = row.kind ∧ ∀ p, row.fits p = lengthFits k p := by
  simp only [takings, List.mem_cons, List.not_mem_nil, or_false] at h
  rcases h with rfl | rfl | rfl | rfl | rfl | rfl | rfl | rfl | rfl | rfl | rfl | rfl | rfl | rfl | rfl | rfl | rfl
  all_goals exact ⟨_, rfl, rfl, fun _ => rfl⟩

/-- Every kind has its row among the takings. -/
theorem code_mem_takings (k : Kind) : k.code ∈ takings.map Taking.kind := by
  cases k <;> decide

/-- A code that no row takes stands for no kind. -/
theorem kindOf_unlisted {code : Byte} (h : ∀ row ∈ takings, code ≠ row.kind) : kindOf code = none := by
  refine Option.eq_none_iff_forall_ne_some.mpr fun k hk => ?_
  obtain ⟨row, hrow, hcode⟩ := List.mem_map.mp (code_mem_takings k)
  exact h row hrow ((kindOf_eq_some_iff.mp hk).trans hcode.symm)

/-- A RESET or STOP that is left to the other row names its scope or mode, so its length fits (log entry 17). -/
theorem lengthFits_of_leftToOtherRow (takes : takenKind c = some k) (h : leftToOtherRow c p) : lengthFits k p = true := by
  rcases h with ⟨rfl, rfl⟩ | ⟨rfl, len, -⟩ | ⟨rfl, len, -⟩ <;> cases takes
  · rfl
  · exact beq_iff_eq.mpr len
  · exact beq_iff_eq.mpr len

/-! ### The two refusals -/

/-- The length is checked before the owning block sees the request (R176). -/
theorem exec_badLength (takes : takenKind c = some k) (hin : s.port.inbound = r :: rest) (hkind : r.kind = k.code)
    (misfit : lengthFits k r.payload = false) : exec c s = .next (s.answered rest r .badLength .nothing) := by
  obtain ⟨sel, act, runs, selects, -⟩ := answersOnce_of_takenKind takes
  have selected : sel r = true := (selects r).mpr fun other =>
    Bool.false_ne_true (misfit.symm.trans (lengthFits_of_leftToOtherRow takes other))
  rw [runs, State.takeKind_badLength hin (kindOf_eq_some_iff.mpr hkind) selected misfit]

theorem exec_unknownKind_answers (hin : s.port.inbound = r :: rest) (hkind : kindOf r.kind = none) :
    exec .unknownKind s = .next (s.answered rest r .unknownKind .nothing) := by
  have unlisted : (kindOf r.kind).isNone = true := Option.isNone_iff_eq_none.mpr hkind
  exact congrArg Host.Outcome.next ((State.takeHead_cons hin).trans (if_pos unlisted))

end

/-- Settles O14. A NOP's code stands for no kind either, so its exclusion in the statement is not needed. -/
theorem misfitRequestsRefused : Obligations.MisfitRequestsRefused := by
  refine ⟨fun row hrow s r rest hin hkind misfit => ?_, fun s r rest hin _ unlisted => ?_⟩
  · obtain ⟨k, takes, code, fits⟩ := taking_takenKind hrow
    exact exec_badLength takes hin (hkind.trans code.symm) ((fits r.payload).symm.trans misfit)
  · exact exec_unknownKind_answers hin (kindOf_unlisted unlisted)

end Sys2Proof.Machine

/-! ## The queue of commands: a step takes its front, and every command runs and leaves the rest (log entries 2 and 3) -/

namespace Sys2Proof.Machine

/-- Settles O1. -/
theorem stepRunsFrontCommand : Obligations.StepRunsFrontCommand :=
  ⟨fun c rest s front => by rw [step, front], fun _ => step_idle⟩

/-! ### Operations that leave the waiting commands -/

theorem Timed.pending {s t : State} (h : Timed s t) : t.pending = s.pending := (congrArg State.pending h).trans rfl

theorem Exchanged.pending {s t : State} (h : Exchanged s t) : t.pending = s.pending := (congrArg State.pending h).trans rfl

section
variable (s : State) (i : StreamNo) (d : DomainId) (rx : RxFrame)

@[simp] theorem settle_pending : (s.settle i).pending = s.pending := (settle_frame s i).pending

@[simp] theorem drain_pending : (s.drain i).pending = s.pending := by
  unfold State.drain
  split
  · exact (QueueFrame.drainIfEmpty i _).pending
  all_goals rfl

@[simp] theorem abort_pending : (s.abort i).pending = s.pending :=
  (retireAll_frame i Descriptor.abortOutcome _ (s.beforeAbort i) (by rw [beforeAbort_stream])).pending

@[simp] theorem closeStream_pending : (s.closeStream i).pending = s.pending :=
  (retireAll_frame i (fun _ => .discarded) _ (s.voidStream i) rfl).pending

@[simp] theorem grantTo_pending : (s.grantTo i).pending = s.pending := by
  unfold State.grantTo State.grantPlay State.grantCapture
  split <;> split <;> rfl

@[simp] theorem completePlay_pending (m : Move) : (s.completePlay m).pending = s.pending := by
  rw [completePlay_eq, settle_pending, State.placed, State.resolvePlay_eq]
  rfl

@[simp] theorem passFilled_pending (h : Handle) : (s.passFilled h).pending = s.pending := by
  unfold State.passFilled State.passPage
  split
  · split <;> rfl
  · rfl

@[simp] theorem completeCapture_pending (m : Move) (k : EntryKind) : (s.completeCapture m k).pending = s.pending := by
  rw [completeCapture_eq, settle_pending, passFilled_pending]
  rfl

theorem itemEvent_pending (dom : Domain) (x : Item) : (State.itemEvent dom rx s x).pending = s.pending := by
  cases x with
  | stream j => exact (itemEvent_stream_frame dom rx s j).pending
  | lane l =>
    obtain ⟨pending, -⟩ := laneEvent_frame s l dom.width rx (dom.counter - 1)
    exact pending

theorem foldl_itemEvent_pending (dom : Domain) (xs : List Item) :
    (xs.foldl (State.itemEvent dom rx) s).pending = s.pending := by
  induction xs generalizing s with
  | nil => rfl
  | cons x xs ih => exact (ih _).trans (itemEvent_pending s rx dom x)

@[simp] theorem sent_pending : (s.sent d).pending = s.pending := by
  unfold State.sent
  split <;> rfl

@[simp] theorem frameEvent_pending : (s.frameEvent d rx).pending = s.pending := by
  have advanced : ∀ u : State, (u.advanced d).pending = u.pending := fun u => State.modDomain_pending u d _
  rw [frameEvent_eq, advanced, foldl_itemEvent_pending, sent_pending]

@[simp] theorem lockTransition_pending : (s.lockTransition d).pending = s.pending := (Timed.lockTransition s d).pending

@[simp] theorem loseLock_pending (measuring : Bool) : (s.loseLock d measuring).pending = s.pending := by
  rw [State.loseLock, State.stopLanes, State.mapLanesOf_pending, lockTransition_pending, State.modDomain_pending]

@[simp] theorem goodFrameClosed_pending (duration : Nat) : (s.goodFrameClosed d duration rx).pending = s.pending := by
  unfold State.goodFrameClosed State.gainLock
  dsimp only
  split
  · simp
  · rfl
  all_goals split <;> simp

@[simp] theorem badFrameClosed_pending : (s.badFrameClosed d).pending = s.pending := by
  unfold State.badFrameClosed
  split <;> simp

@[simp] theorem convert_pending (c : Claim) (rest : List Claim) : (s.convert c rest).pending = s.pending := by
  cases c <;> simp [State.convert, State.handOn]

end

/-! ### Requests -/

section
variable {s t : State} {k : Kind} {sel : Request → Bool}

theorem takeKind_pending {act : Request → State → State} (hact : ∀ r u, (act r u).pending = u.pending) :
    (s.takeKind k sel act).pending = s.pending := by
  rcases State.takeKind_cases s k sel act with h | ⟨r, rest, -, -, -, ⟨-, h⟩ | ⟨-, h⟩⟩ <;> rw [h]
  · rfl
  · exact hact r (s.modPort fun p => { p with inbound := rest })

theorem takeKind_answer_pending {α : Type} {check : State → List Byte → Except Status α} {act : Request → State → α → State}
    (hact : ∀ r u x, (act r u x).pending = u.pending) :
    (s.takeKind k sel fun r u => u.answer k r (check u r.payload) (act r u)).pending = s.pending :=
  takeKind_pending fun r u => by
    cases check u r.payload with
    | error st => rfl
    | ok x => exact hact r u x

/-! ### The commands, one by one -/

/-- No command's meaning is a fault or a refusal: a request that the part refuses is answered (R1, R161). -/
theorem exec_completes (c : Instr) (s : State) : ∃ t, exec c s = .next t := by
  cases c <;> exact ⟨_, rfl⟩

theorem exec_pending {c : Instr} (h : exec c s = .next t) : t.pending = s.pending := by
  cases c with
  | pinReset ovr csnLow => cases h; rfl
  | csnFalling => cases h; split <;> rfl
  | endOfExchange sdi => exact (exec_endOfExchange_exchanged h).pending
  | unknownKind =>
    cases h
    unfold State.takeHead
    split
    · rfl
    · split <;> rfl
  | identify => cases h; exact takeKind_pending fun _ _ => rfl
  | status => cases h; exact takeKind_pending fun _ _ => rfl
  | resetFull => cases h; exact takeKind_pending fun _ _ => rfl
  | resetStreams => cases h; exact takeKind_pending fun _ _ => by split <;> rfl
  | setDomain => cases h; exact takeKind_answer_pending fun _ u x => (setDomain_timed u x.1 x.2).pending
  | queryTime => cases h; exact takeKind_answer_pending (check := fun _ => checkQueryTime) fun _ _ _ => rfl
  | setLane => cases h; exact takeKind_answer_pending fun _ _ _ => rfl
  | setMarker => cases h; exact takeKind_answer_pending (check := fun _ => checkSetMarker) fun _ _ _ => rfl
  | openStream => cases h; exact takeKind_answer_pending fun _ _ _ => rfl
  | startStream => cases h; exact takeKind_answer_pending fun _ _ i => settle_pending _ i
  | stopDrain => cases h; exact takeKind_answer_pending fun _ u i => drain_pending u i
  | stopAbort => cases h; exact takeKind_answer_pending fun _ u i => abort_pending u i
  | closeStream => cases h; exact takeKind_answer_pending fun _ u i => closeStream_pending u i
  | queryStream => cases h; exact takeKind_answer_pending fun _ _ _ => rfl
  | submit => cases h; exact takeKind_answer_pending fun _ _ x => settle_pending _ x.1
  | put => cases h; exact takeKind_answer_pending fun _ _ x => settle_pending _ x.1
  | clearOverride => cases h; exact takeKind_pending fun _ _ => by split <;> rfl
  | setArbitration => cases h; exact takeKind_answer_pending (check := fun _ => checkSetArbitration) fun _ _ _ => rfl
  | grant =>
    cases h
    split
    · rfl
    · split
      · rfl
      · exact grantTo_pending s _
  | completion =>
    cases h
    split
    · rfl
    · next m _ =>
      dsimp only
      split
      · rfl
      · split
        · exact completePlay_pending { s with inFlight := none } m
        · exact completeCapture_pending { s with inFlight := none } m _
  | frameClosed d bits duration rx =>
    cases h
    split
    · split
      · split
        · exact goodFrameClosed_pending s d rx duration
        · exact badFrameClosed_pending s d
      · exact State.modDomain_pending s d _
    · rfl
  | lockTimeout d elapsed =>
    cases h
    split
    · exact loseLock_pending s d false
    · rfl
  | goodRunTimeout d elapsed =>
    cases h
    split
    · exact State.modDomain_pending s d _
    · rfl
  | generatorBoundary d rx =>
    cases h
    split
    · exact frameEvent_pending s d rx
    · rfl
  | assertionEdge =>
    cases h
    split
    · rfl
    · exact State.raiseOnce_pending _ _
  | deassertionEdge =>
    cases h
    split
    · rfl
    · exact State.raiseOnce_pending _ _
  | conversion =>
    cases h
    split
    · rfl
    · split
      · exact convert_pending s _ _
      · rfl

end

/-- Settles O2: each arm of `exec` answers a next state, and each operation that an arm is made of leaves the queue of
commands as it is. -/
theorem everyCommandCompletes : Obligations.EveryCommandCompletes := by
  intro c s
  obtain ⟨t, ran⟩ := exec_completes c s
  exact ⟨t, ran, exec_pending ran⟩

end Sys2Proof.Machine
